-- ==== Sys2Proof/Word.lean ====
section
/-!
DEFINITION. The fixed-width words of the block (00_scope R7 and Notation, 10_state R20).
A width that depends on the width class is held in the widest class's word, right-aligned
(notes/assumptions/11.md).
-/

namespace Sys2Proof

/-- A frame byte: 8 bits, values 0..255 (20_memory R51). -/
abbrev Byte := BitVec 8

/-- A beat's data word `dat`: the low `8W` bits are the field, 512 bits for `W = 64` (30_encoding R71). -/
abbrev Dat := BitVec 512

/-- A beat's `mod` field: the low `c` bits are the field, 6 bits for `W = 64` (30_encoding R71, R72). -/
abbrev ModField := BitVec 6

/-- The application tag `usr`, 32 bits (10_state R26). -/
abbrev Tag := BitVec 32

/-- The concatenated beat word: the low `T = 8W + c + 36` bits, 554 bits for `W = 64` (30_encoding R71). -/
abbrev WireWord := BitVec 554

end Sys2Proof
end

