-- ==== Sys2Proof/Config.lean ====
section
/-!
DEFINITION. What is fixed at construction (00_scope R7, 10_state R29), the inputs of the block
(30_encoding R83), and the free values that stand for inputs no list in State gives.
-/

namespace Sys2Proof

/-- The seven width classes, named by `W` in bytes (00_scope R3, 30_encoding R70). Code 111 is
reserved and has no constructor, so it is unconstructible. -/
inductive WidthClass where
  | w1 | w2 | w4 | w8 | w16 | w32 | w64
  deriving DecidableEq, Repr, Inhabited

/-- The open digit format of the text dump (30_encoding R76, 92_eei_decisions D29): the three points the
source leaves open. DESIGN CHOICE (notes/assumptions/18.md): these three are all it can vary. -/
structure DumpFormat where
  /-- Digits above nine in capitals. -/
  upperCase : Bool
  /-- Each value padded with zeros to the digits its field's width needs. -/
  padded : Bool
  /-- What stands between two fields. -/
  separator : List Char
  deriving DecidableEq, Repr, Inhabited

/-- The construction parameters of the block (00_scope R7, 10_state R29). `none` for a size means unbounded. -/
structure Config where
  /-- The width class `c`, `W = 2^c` bytes. -/
  c : WidthClass
  /-- `TAG`, driven on `usr` of every beat. -/
  tag : Tag
  /-- `NMAX`, the longest frame a slot holds. -/
  nmax : Option Nat
  /-- `CURSOR_W`, the width of `cursor` in a realisation. -/
  cursorW : Option Nat
  /-- `BITS_W`, the width of the `bits` output. -/
  bitsW : Option Nat
  /-- `HANDLER`, opaque to the block. PRESUMED a natural number (notes/assumptions/19.md). -/
  handler : Nat
  /-- `PAYLOAD`, opaque to the block. PRESUMED a byte list (notes/assumptions/19.md). -/
  payload : List Byte
  /-- `DUMP_FORMAT`. -/
  dumpFormat : DumpFormat
  deriving DecidableEq, Repr, Inhabited

/-- A frame-source answer at the block's boundary (41_framebuffer R137). -/
inductive Answer where
  | frame (bytes : List Byte)
  | sourceError
  deriving DecidableEq, Repr, Inhabited

/-- The harness's inputs at one clock edge (30_encoding R83). -/
structure Edge where
  rst : Bool
  avail : Bool
  ack : Bool
  deriving DecidableEq, Repr, Inhabited

/-- FREE VALUE (notes/assumptions/1.md): the harness's inputs at the `n`-th edge, for an edge that no list in
State gives. The harness may set `avail` and `ack` to 0 or 1 at any edge (70_reset_and_hazards R233). -/
opaque Config.freeEdge : Nat → Edge

/-- FREE VALUE (notes/assumptions/2.md): the frame source's answer to the `n`-th call, for a call that no list in
State answers. The source may answer any frame or an error (70_reset_and_hazards R233). -/
opaque Config.freeAnswer : Nat → Answer

end Sys2Proof
end

