-- ==== Sys2Proof/Machine/State.lean ====
section
/-!
DEFINITION. The block's state as plain data (10_state R20), the configuration it was built with (10_state R29),
the pending inputs of its environment, the reasons a step can stop, and the state after reset (10_state R35).
-/

namespace Sys2Proof.Machine

/-- The FrameStreamer state register (10_state R21). `unused` is a value of a state code wider than the 2-bit
code of 30_encoding R77 that names no state (42_framestreamer R162, 95_test_vectors V18); no step produces it
(notes/assumptions/9.md). -/
inductive St where
  | init
  | requesting
  | streaming
  | draining
  | unused (code : Nat)
  deriving DecidableEq, Repr

/-- A frame (10_state R30). Its length `N` is the length of `bytes`. -/
structure Frame where
  bytes : List Byte
  lastOffset : Nat
  prefetchOffset : Nat
  deriving DecidableEq, Repr

/-- The output beat register (10_state R26). -/
structure Beat where
  usr : Tag
  err : Bool
  val : Bool
  sof : Bool
  eof : Bool
  mod : ModField
  dat : Dat
  deriving DecidableEq, Repr

/-- Why an invariant check fails (60_exceptions R202). -/
inductive Reason where
  | unrecognisedState
  | pendingOccupied
  | pendingEmpty
  | noCurrent
  | cursorOutOfRange
  deriving DecidableEq, Repr

/-- The faults the block records in its `fault` register, with their info (60_exceptions R200). -/
inductive BlockFault where
  | sourceError
  | invariantFailure (reason : Reason)
  | frameTooLong (n : Nat)
  deriving DecidableEq, Repr

/-- The model's own observation point, not the spec's state: what the last codec or THRESH operation invoked by
itself returned (DESIGN CHOICE, notes/assumptions/4.md). No operation of the block reads it. -/
inductive Tap where
  /-- Nothing has been invoked by itself since reset. -/
  | nothing
  /-- The `8W`-bit result of PACK for class `c`. -/
  | dat (c : WidthClass) (v : Dat)
  /-- The `c`-bit result of ENC_VC for class `c`. -/
  | modField (c : WidthClass) (v : ModField)
  /-- The byte count DEC_VC gives. -/
  | count (k : Nat)
  /-- The frame THRESH builds. -/
  | frame (f : Frame)
  deriving DecidableEq, Repr

/-- The machine. The first eight fields are the spec's state tuple (10_state R20). -/
structure State where
  st : St
  cur : Option Frame
  pend : Option Frame
  cursor : Nat
  req : Bool
  out : Beat
  bits : Nat
  fault : Option BlockFault
  /-- The configuration, which no step writes (10_state R29). -/
  cfg : Config
  /-- MODEL'S OWN: the harness's inputs at the edges to come, oldest first (notes/assumptions/1.md). -/
  stimulus : List Edge
  /-- MODEL'S OWN: how many edges have been taken; indexes `Config.freeEdge` (notes/assumptions/1.md). -/
  edges : Nat
  /-- MODEL'S OWN: the frame source's answers to come, in call order (notes/assumptions/2.md). -/
  answers : List Answer
  /-- MODEL'S OWN: how many calls have been made; indexes `Config.freeAnswer` (notes/assumptions/2.md). -/
  calls : Nat
  /-- MODEL'S OWN: see `Tap` (notes/assumptions/4.md). -/
  tap : Tap
  deriving DecidableEq, Repr

/-- Where the model itself stops. The spec's own faults are states (`State.fault`), not stops. -/
inductive Fault where
  /-- Raised by BEAT, REQ_DECIDE and NEXT_STATE invoked by themselves while `cur` is empty: they read `cur`, and
  the spec gives them no effect there. No step of the block reaches it. Safe: the model stops
  (notes/assumptions/8.md). -/
  | emptySlotRead
  deriving DecidableEq, Repr

/-- Refusals. -/
inductive Refusal where
  /-- Raised by an arm of `exec` whose operation has no meaning yet; no arm is. Safe: the model stops. -/
  | notModelled (mnemonic : String)
  deriving DecidableEq, Repr

/-- The configuration of the reset state. The defaults `TAG = 0` and `NMAX` unbounded are 00_scope R7's; the other
values are DESIGN CHOICES (notes/assumptions/3.md, 18.md, 19.md). -/
def defaultConfig : Config where
  c := .w4
  tag := 0
  nmax := none
  cursorW := none
  bitsW := none
  handler := 0
  payload := []
  dumpFormat := { upperCase := false, padded := false, separator := ['\n'] }

/-- The machine right after reset (10_state R35), with nothing placed in its environment. -/
def State.reset : State where
  st := .init
  cur := none
  pend := none
  cursor := 0
  req := false
  out := { usr := defaultConfig.tag, err := false, val := false, sof := false, eof := false, mod := 0, dat := 0 }
  bits := 0
  fault := none
  cfg := defaultConfig
  stimulus := []
  edges := 0
  answers := []
  calls := 0
  tap := .nothing

end Sys2Proof.Machine
end

