-- ==== Sys2Proof/Machine/Width.lean ====
section
/-!
DEFINITION. The width class as a number: the index `c`, the beat width `W = 2^c`, the field widths
`MODW`, `8W` and `T` (30_encoding R70, R71).
-/

namespace Sys2Proof

/-- The class index `c`, 0..6 (30_encoding R70). -/
def WidthClass.index : WidthClass → Nat
  | .w1 => 0
  | .w2 => 1
  | .w4 => 2
  | .w8 => 3
  | .w16 => 4
  | .w32 => 5
  | .w64 => 6

/-- The beat width `W = 2^c` in bytes (00_scope R3). -/
def WidthClass.bytes (c : WidthClass) : Nat := 2 ^ c.index

/-- `MODW`, the width of the `mod` field: `c` bits (30_encoding R72). -/
def WidthClass.modW (c : WidthClass) : Nat := c.index

/-- The width of `dat` in bits (30_encoding R71). -/
def WidthClass.datW (c : WidthClass) : Nat := 8 * c.bytes

/-- The wire width `T = 8W + c + 36` (30_encoding R71). -/
def WidthClass.wireW (c : WidthClass) : Nat := c.datW + c.modW + 36

end Sys2Proof
end

