-- ==== Sys2Proof/Machine/Ops.lean ====
section
/-!
DEFINITION. The named operations over the state: the named register updates, the one read of frame bytes
(20_memory R53), the slot moves (20_memory R54, R55), the frame-source call (41_framebuffer R134), the flow of a
step's pseudocode (00_scope R9), TAKING A FAULT as one operation (60_exceptions R204), and RESET, the only way back
from one (60_exceptions R206, 70_reset_and_hazards R230).
-/

namespace Sys2Proof.Machine

/-! ### Registers, each written in one place -/

/-- `st <- x` (00_scope Notation, Control). -/
def State.setSt (s : State) (x : St) : State := { s with st := x }

/-- `cursor <- n`. -/
def State.setCursor (s : State) (n : Nat) : State := { s with cursor := n }

/-- `req <- b`. -/
def State.setReq (s : State) (b : Bool) : State := { s with req := b }

/-- `out <- b`. -/
def State.setOut (s : State) (b : Beat) : State := { s with out := b }

/-- `bits <- n`. -/
def State.setBits (s : State) (n : Nat) : State := { s with bits := n }

/-- What a codec or THRESH operation invoked by itself returns (notes/assumptions/4.md). -/
def State.setTap (s : State) (t : Tap) : State := { s with tap := t }

/-! ### The two frame slots -/

/-- `pend <- f`: the one write of frame bytes, whole (20_memory R54). -/
def State.setPend (s : State) (f : Frame) : State := { s with pend := some f }

/-- `cur <- f; pend <- none`: the whole frame moves, and the frame `cur` held is discarded (20_memory R55). -/
def State.moveToCur (s : State) (f : Frame) : State := { s with cur := some f, pend := none }

/-- `f.N`, the frame's length (10_state R30). -/
def Frame.len (f : Frame) : Nat := f.bytes.length

/-- `Byte(f, i)`, and 0 for every index at or past the end: "any lanes beyond the frame's end are zero-filled"
(20_memory R53). What an unlisted offset of a slot reads as is decided here. -/
def byteAt (bytes : List Byte) (i : Nat) : Byte := bytes.getD i 0

/-- `MemRead(f, off, n)` (20_memory R53): `n` consecutive bytes. -/
def memRead (bytes : List Byte) (off n : Nat) : List Byte :=
  (List.range n).map (fun j => byteAt bytes (off + j))

/-! ### The environment -/

/-- The frame source's answer to the next `SourceCall`: the next listed one, else the free value of this call
(41_framebuffer R134, notes/assumptions/2.md). -/
def State.nextAnswer (s : State) : Answer :=
  match s.answers with
  | a :: _ => a
  | [] => Config.freeAnswer s.calls

/-- The call has been made: its answer is used up (60_exceptions R204, 92_eei_decisions D13). -/
def State.consumeAnswer (s : State) : State :=
  { s with answers := s.answers.tail, calls := s.calls + 1 }

/-- One clock edge has been taken: its inputs are used up (notes/assumptions/1.md). -/
def State.tick (s : State) : State :=
  { s with stimulus := s.stimulus.tail, edges := s.edges + 1 }

/-! ### The flow of a step -/

/-- How far a step's pseudocode has come (00_scope R9). -/
inductive Flow where
  /-- It goes on from this state; its writes so far are visible to the reads after it. -/
  | go (s : State)
  /-- It executed `raise f`; the state holds the writes made so far. -/
  | raised (f : BlockFault) (s : State)
  /-- It read a field of the empty `cur` slot, where the spec gives no effect (notes/assumptions/8.md). -/
  | emptyRead
  deriving DecidableEq, Repr

/-- Sequence: the second operation runs only if the first goes on. -/
def Flow.andThen (x : Flow) (k : State → Flow) : Flow :=
  match x with
  | .go s => k s
  | .raised f s => .raised f s
  | .emptyRead => .emptyRead

/-- TAKING A FAULT (60_exceptions R204): the state before the step with `fault <- f`. Every other write of the step
is thrown away; only an answer already asked of the source stays used up. -/
def takeFault (before : State) (f : BlockFault) (atRaise : State) : State :=
  { before with fault := some f, answers := atRaise.answers, calls := atRaise.calls }

/-- The end of a step that began in `before`: its writes take effect together, or its fault is taken. -/
def commit (before : State) (x : Flow) : Host.Outcome State Fault Refusal :=
  match x with
  | .go s => .next s
  | .raised f s => .next (takeFault before f s)
  | .emptyRead => .fault .emptySlotRead

/-! ### The idle beat and reset -/

/-- The idle beat (42_framestreamer R153, 92_eei_decisions D8). -/
def idleBeatOf (cfg : Config) : Beat :=
  { usr := cfg.tag, err := false, val := false, sof := false, eof := false, mod := 0, dat := 0 }

/-- RESET (70_reset_and_hazards R230): every element of the state tuple at the value of 10_state R35, whatever it
was. The configuration is not reset, no call is made, and the environment's inputs go on (92_eei_decisions D13). -/
def resetState (s : State) : State :=
  { s with
    st := .init, cur := none, pend := none, cursor := 0, req := false,
    out := idleBeatOf s.cfg, bits := 0, fault := none, tap := .nothing }

end Sys2Proof.Machine
end

