-- ==== Sys2Proof/Machine/Control.lean ====
section
/-!
DEFINITION. The operations decided before an arm (30_encoding R78): RESET, FAULTED, and the inactive cycle IDLE.
-/

namespace Sys2Proof.Machine

/-- IDLE (42_framestreamer R151): no write, everything is held. -/
def execIdle (s : State) : Host.Outcome State Fault Refusal := .next s

/-- RESET (70_reset_and_hazards R230). -/
def execReset (s : State) : Host.Outcome State Fault Refusal := .next (resetState s)

/-- FAULTED (60_exceptions R205): the state is left unchanged; no input is read and no call is made. -/
def execFaulted (s : State) : Host.Outcome State Fault Refusal := .next s

end Sys2Proof.Machine
end

