-- ==== Sys2Proof/Machine/Operands.lean ====
section
/-!
DEFINITION. Operand assembly (30_encoding R81): where each operation takes its operands from.
-/

namespace Sys2Proof.Machine

/-- `last_offset = N ∸ W` (41_framebuffer R130). -/
def lastOffsetOf (c : WidthClass) (n : Nat) : Nat := n - c.bytes

/-- `prefetch_offset = N ∸ 2W` (41_framebuffer R130). -/
def prefetchOffsetOf (c : WidthClass) (n : Nat) : Nat := n - 2 * c.bytes

/-- `k = min(W, cur.N ∸ cursor)`, the bytes consumed on this beat (42_framestreamer R152). -/
def validCount (c : WidthClass) (n cursor : Nat) : Nat := min c.bytes (n - cursor)

/-- `min(cursor + W, N)`: the cursor's advance, "saturating at frame length" (42_framestreamer R159, R160). -/
def advanceCursor (c : WidthClass) (n cursor : Nat) : Nat := min (cursor + c.bytes) n

/-- `bits = 8 * cur.N` (10_state R27, 92_eei_decisions D10). -/
def bitsHint (n : Nat) : Nat := 8 * n

/-- A frame of `n` bytes is within `NMAX` (20_memory R52). -/
def fitsSlot (cfg : Config) (n : Nat) : Bool :=
  match cfg.nmax with
  | none => true
  | some m => decide (n ≤ m)

end Sys2Proof.Machine
end

