-- ==== Sys2Proof/Machine/Codec.lean ====
section
/-!
DEFINITION. BeatCodec (40_beatcodec): PACK, ENC_VC and DEC_VC as pure functions of their operands and the class,
and the meanings of their rows invoked by themselves, which put the result on the tap (notes/assumptions/4.md).
-/

namespace Sys2Proof.Machine

/-- The word of a list of lanes, lane 0 most significant: `{b_0, b_1, ...}` (40_beatcodec R101). -/
def wordOfLanes (lanes : List Byte) : Dat :=
  lanes.foldl (fun acc b => (acc <<< 8) ||| b.setWidth 512) 0

/-- Lane `j` of `dat`: `dat[8W-1-8j : 8W-8-8j]` (30_encoding R75). -/
def lane (c : WidthClass) (dat : Dat) (j : Nat) : Byte :=
  dat.extractLsb' (8 * c.bytes - 8 - 8 * j) 8

/-- `PACK(f, off)` (40_beatcodec R101): `W` bytes from `off`, big-endian, zero-filled past the frame's end. -/
def packWord (c : WidthClass) (bytes : List Byte) (off : Nat) : Dat :=
  wordOfLanes (memRead bytes off c.bytes)

/-- `ENC_VC(k)` by class (40_beatcodec R102 to R104); at `k = 0` it gives 0 (R105). -/
def encVc (c : WidthClass) (k : Nat) : ModField :=
  match c with
  | .w1 => 0
  | .w2 => if k = 1 then 1 else 0
  | .w4 | .w8 | .w16 | .w32 | .w64 => if k = c.bytes then 0 else BitVec.ofNat 6 k

/-- `DEC_VC(m)` by class (40_beatcodec R106 to R108); the empty field of class 0 is read as 0. -/
def decVc (c : WidthClass) (m : ModField) : Nat :=
  match c with
  | .w1 => 1
  | .w2 => if m = 1 then 1 else 2
  | .w4 | .w8 | .w16 | .w32 | .w64 => if m = 0 then c.bytes else m.toNat

/-- PACK (40_beatcodec R101). -/
def execPack (c : WidthClass) (bytes : List Byte) (off : Nat) (s : State) : Host.Outcome State Fault Refusal :=
  .next (s.setTap (.dat c (packWord c bytes off)))

/-- ENC_VC.W1 (40_beatcodec R102). -/
def execEncVcW1 (k : Fin 2) (s : State) : Host.Outcome State Fault Refusal :=
  .next (s.setTap (.modField .w1 (encVc .w1 k.val)))

/-- ENC_VC.W2 (40_beatcodec R103). -/
def execEncVcW2 (k : Fin 3) (s : State) : Host.Outcome State Fault Refusal :=
  .next (s.setTap (.modField .w2 (encVc .w2 k.val)))

/-- ENC_VC.W4 (40_beatcodec R104). -/
def execEncVcW4 (k : Fin 5) (s : State) : Host.Outcome State Fault Refusal :=
  .next (s.setTap (.modField .w4 (encVc .w4 k.val)))

/-- ENC_VC.W8 (40_beatcodec R104). -/
def execEncVcW8 (k : Fin 9) (s : State) : Host.Outcome State Fault Refusal :=
  .next (s.setTap (.modField .w8 (encVc .w8 k.val)))

/-- ENC_VC.W16 (40_beatcodec R104). -/
def execEncVcW16 (k : Fin 17) (s : State) : Host.Outcome State Fault Refusal :=
  .next (s.setTap (.modField .w16 (encVc .w16 k.val)))

/-- ENC_VC.W32 (40_beatcodec R104). -/
def execEncVcW32 (k : Fin 33) (s : State) : Host.Outcome State Fault Refusal :=
  .next (s.setTap (.modField .w32 (encVc .w32 k.val)))

/-- ENC_VC.W64 (40_beatcodec R104). -/
def execEncVcW64 (k : Fin 65) (s : State) : Host.Outcome State Fault Refusal :=
  .next (s.setTap (.modField .w64 (encVc .w64 k.val)))

/-- DEC_VC.W1 (40_beatcodec R106). -/
def execDecVcW1 (s : State) : Host.Outcome State Fault Refusal :=
  .next (s.setTap (.count (decVc .w1 0)))

/-- DEC_VC.W2 (40_beatcodec R107). -/
def execDecVcW2 (m : BitVec 1) (s : State) : Host.Outcome State Fault Refusal :=
  .next (s.setTap (.count (decVc .w2 (m.setWidth 6))))

/-- DEC_VC.W4 (40_beatcodec R108). -/
def execDecVcW4 (m : BitVec 2) (s : State) : Host.Outcome State Fault Refusal :=
  .next (s.setTap (.count (decVc .w4 (m.setWidth 6))))

/-- DEC_VC.W8 (40_beatcodec R108). -/
def execDecVcW8 (m : BitVec 3) (s : State) : Host.Outcome State Fault Refusal :=
  .next (s.setTap (.count (decVc .w8 (m.setWidth 6))))

/-- DEC_VC.W16 (40_beatcodec R108). -/
def execDecVcW16 (m : BitVec 4) (s : State) : Host.Outcome State Fault Refusal :=
  .next (s.setTap (.count (decVc .w16 (m.setWidth 6))))

/-- DEC_VC.W32 (40_beatcodec R108). -/
def execDecVcW32 (m : BitVec 5) (s : State) : Host.Outcome State Fault Refusal :=
  .next (s.setTap (.count (decVc .w32 (m.setWidth 6))))

/-- DEC_VC.W64 (40_beatcodec R108). -/
def execDecVcW64 (m : BitVec 6) (s : State) : Host.Outcome State Fault Refusal :=
  .next (s.setTap (.count (decVc .w64 m)))

end Sys2Proof.Machine
end

