-- ==== Sys2Proof/Machine/Flags.lean ====
section
/-!
DEFINITION. The computations of the flags (10_state R32): `eof` and the next state (42_framestreamer R155), the
request decision (42_framestreamer R154), and the constant `err` (42_framestreamer R161).
-/

namespace Sys2Proof.Machine

/-- `eof`: the beat at `cursor` is the frame's last (42_framestreamer R155). -/
def isLastBeat (f : Frame) (cursor : Nat) : Bool := decide (f.lastOffset ≤ cursor)

/-- The next frame must have been requested by the beat at `cursor`; equality counts (42_framestreamer R154). -/
def prefetchDue (f : Frame) (cursor : Nat) : Bool := decide (f.prefetchOffset ≤ cursor)

/-- The state after the beat at `cursor`; the `eof` test comes first (42_framestreamer R155). -/
def stAfterBeat (f : Frame) (cursor : Nat) : St :=
  if isLastBeat f cursor then .requesting
  else if prefetchDue f cursor then .draining
  else .streaming

/-- `out.err`: "always false in this core" (42_framestreamer R161). -/
def errFlag : Bool := false

end Sys2Proof.Machine
end

