-- ==== Sys2Proof/Machine/FrameBuffer.lean ====
section
/-!
DEFINITION. FrameBuffer (41_framebuffer): THRESH, FETCH and SWAP, and the meanings of their rows invoked by
themselves.
-/

namespace Sys2Proof.Machine

/-- `THRESH(bytes)` (41_framebuffer R130): the frame with its two thresholds. -/
def threshFrame (c : WidthClass) (bytes : List Byte) : Frame :=
  { bytes := bytes
    lastOffset := lastOffsetOf c bytes.length
    prefetchOffset := prefetchOffsetOf c bytes.length }

/-- `FETCH()` (41_framebuffer R133): the full-slot check comes before the call; the call's answer is used up
whatever it is. -/
def fetchFlow (s : State) : Flow :=
  if s.pend.isSome then .raised (.invariantFailure .pendingOccupied) s
  else match s.nextAnswer with
    | .sourceError => .raised .sourceError s.consumeAnswer
    | .frame bytes =>
      if fitsSlot s.cfg bytes.length then .go (s.consumeAnswer.setPend (threshFrame s.cfg.c bytes))
      else .raised (.frameTooLong bytes.length) s.consumeAnswer

/-- `SWAP()` (41_framebuffer R135). -/
def swapFlow (s : State) : Flow :=
  match s.pend with
  | none => .raised (.invariantFailure .pendingEmpty) s
  | some f => .go (s.moveToCur f)

/-- THRESH (41_framebuffer R130) for the block's own width. -/
def execThresh (bytes : List Byte) (s : State) : Host.Outcome State Fault Refusal :=
  .next (s.setTap (.frame (threshFrame s.cfg.c bytes)))

/-- FETCH (41_framebuffer R133). -/
def execFetch (s : State) : Host.Outcome State Fault Refusal := commit s (fetchFlow s)

/-- SWAP (41_framebuffer R135). -/
def execSwap (s : State) : Host.Outcome State Fault Refusal := commit s (swapFlow s)

end Sys2Proof.Machine
end

