-- ==== Sys2Proof/Machine/Streamer.lean ====
section
/-!
DEFINITION. FrameStreamer (42_framestreamer): the shared sub-operations BEAT, IDLE_BEAT, REQ_DECIDE, NEXT_STATE, the
arms INIT, REQ_HOLD, REQ_SWAP, STREAM, DRAIN, and the meanings of their rows. An arm is its pseudocode; a row of the
table that selects it applies only when `rst = 0` and `fault = none`, which the selection decides
(Machine/Fetch.lean, notes/assumptions/23.md).
-/

namespace Sys2Proof.Machine

/-! ### Shared sub-operations -/

/-- The beat BEAT forms of frame `f` at the cursor; `val` and `eof` stay for NEXT_STATE (42_framestreamer R152). -/
def formBeat (s : State) (f : Frame) (sofv : Bool) : Beat :=
  { usr := s.cfg.tag
    err := errFlag
    val := s.out.val
    sof := sofv
    eof := s.out.eof
    mod := encVc s.cfg.c (validCount s.cfg.c f.len s.cursor)
    dat := packWord s.cfg.c f.bytes s.cursor }

/-- `BEAT(sofv)` (42_framestreamer R152). -/
def beatFlow (sofv : Bool) (s : State) : Flow :=
  match s.cur with
  | none => .emptyRead
  | some f => .go (s.setOut (formBeat s f sofv))

/-- `IDLE_BEAT` (42_framestreamer R153). -/
def idleBeatFlow (s : State) : Flow := .go (s.setOut (idleBeatOf s.cfg))

/-- `REQ_DECIDE()` (42_framestreamer R154). -/
def reqDecideFlow (s : State) : Flow :=
  match s.cur with
  | none => .emptyRead
  | some f =>
    if prefetchDue f s.cursor then (fetchFlow s).andThen (fun s => .go (s.setReq true))
    else .go (s.setReq false)

/-- `NEXT_STATE()` (42_framestreamer R155): `val` is 1 in all three cases. -/
def nextStateFlow (s : State) : Flow :=
  match s.cur with
  | none => .emptyRead
  | some f =>
    .go ((s.setOut { s.out with val := true, eof := isLastBeat f s.cursor }).setSt (stAfterBeat f s.cursor))

/-- The checks and the advance that open STREAM and DRAIN (42_framestreamer R159, R160). -/
def advanceFlow (s : State) : Flow :=
  match s.cur with
  | none => .raised (.invariantFailure .noCurrent) s
  | some f =>
    if f.lastOffset ≤ s.cursor then .raised (.invariantFailure .cursorOutOfRange) s
    else .go (s.setCursor (advanceCursor s.cfg.c f.len s.cursor))

/-- `cursor <- 0; bits <- 8 * cur.N` (42_framestreamer R158). -/
def startFrameFlow (s : State) : Flow :=
  match s.cur with
  | none => .emptyRead
  | some f => .go ((s.setCursor 0).setBits (bitsHint f.len))

/-! ### The arms -/

/-- `INIT` (42_framestreamer R156). -/
def initFlow (s : State) : Flow :=
  (fetchFlow s).andThen fun s =>
  (idleBeatFlow (s.setReq true)).andThen fun s =>
  .go (s.setSt .requesting)

/-- `REQ_SWAP` (42_framestreamer R158). -/
def reqSwapFlow (s : State) : Flow :=
  (swapFlow s).andThen fun s =>
  (startFrameFlow s).andThen fun s =>
  (beatFlow true s).andThen fun s =>
  (reqDecideFlow s).andThen fun s =>
  nextStateFlow s

/-- `STREAM` (42_framestreamer R159). -/
def streamFlow (s : State) : Flow :=
  (advanceFlow s).andThen fun s =>
  (beatFlow false s).andThen fun s =>
  (reqDecideFlow s).andThen fun s =>
  nextStateFlow s

/-- `DRAIN` (42_framestreamer R160): no request decision. -/
def drainFlow (s : State) : Flow :=
  (advanceFlow s).andThen fun s =>
  (beatFlow false s).andThen fun s =>
  nextStateFlow s

/-! ### The meanings -/

/-- INIT (42_framestreamer R156). -/
def execInit (s : State) : Host.Outcome State Fault Refusal := commit s (initFlow s)

/-- REQ_HOLD (42_framestreamer R157): an idle beat, and nothing else. -/
def execReqHold (s : State) : Host.Outcome State Fault Refusal := commit s (idleBeatFlow s)

/-- REQ_SWAP (42_framestreamer R158). -/
def execReqSwap (s : State) : Host.Outcome State Fault Refusal := commit s (reqSwapFlow s)

/-- STREAM (42_framestreamer R159). -/
def execStream (s : State) : Host.Outcome State Fault Refusal := commit s (streamFlow s)

/-- DRAIN (42_framestreamer R160). -/
def execDrain (s : State) : Host.Outcome State Fault Refusal := commit s (drainFlow s)

/-- BEAT (42_framestreamer R152). -/
def execBeat (sofv : Bool) (s : State) : Host.Outcome State Fault Refusal := commit s (beatFlow sofv s)

/-- IDLE_BEAT (42_framestreamer R153). -/
def execIdleBeat (s : State) : Host.Outcome State Fault Refusal := commit s (idleBeatFlow s)

/-- REQ_DECIDE (42_framestreamer R154). -/
def execReqDecide (s : State) : Host.Outcome State Fault Refusal := commit s (reqDecideFlow s)

/-- NEXT_STATE (42_framestreamer R155). -/
def execNextState (s : State) : Host.Outcome State Fault Refusal := commit s (nextStateFlow s)

end Sys2Proof.Machine
end

