-- ==== Sys2Proof/Syntax.lean ====
section
/-!
DEFINITION. The operations of the block: one constructor per row of spec/opcode_table.json. A bit of a control
word that its row does not look at is an operand, so that no bit of an encoding is lost.
-/

namespace Sys2Proof

/-- The rows of the opcode table, in the table's order. -/
inductive Instr where
  /-- `IDLE`, the inactive cycle (42_framestreamer R151). `ack` and `st` are the bits it ignores. -/
  | idle (ack : Bool) (st : BitVec 2)
  /-- `INIT`, the first fetch (42_framestreamer R156). It ignores `ack`. -/
  | init (ack : Bool)
  /-- `REQ_HOLD`, wait for the acknowledgement (42_framestreamer R157). -/
  | reqHold
  /-- `REQ_SWAP`, swap in the pending frame and emit its first beat (42_framestreamer R158). -/
  | reqSwap
  /-- `STREAM`, advance below the prefetch threshold (42_framestreamer R159). It ignores `ack`. -/
  | stream (ack : Bool)
  /-- `DRAIN`, advance with the prefetch outstanding (42_framestreamer R160). It ignores `ack`. -/
  | drain (ack : Bool)
  /-- `RESET` (70_reset_and_hazards R230). It ignores `flt` and the selector. -/
  | reset (flt : Bool) (sel : BitVec 4)
  /-- `FAULTED`, an edge with a recorded fault (60_exceptions R205). It ignores the selector. -/
  | faulted (sel : BitVec 4)
  /-- `PACK` of the frame with these bytes at offset `off`, for class `c` (40_beatcodec R101). -/
  | pack (c : WidthClass) (bytes : List Byte) (off : Nat)
  /-- `ENC_VC` for `W = 1`, `k` in 0..1 (40_beatcodec R102, R105). -/
  | encVcW1 (k : Fin 2)
  /-- `ENC_VC` for `W = 2`, `k` in 0..2 (40_beatcodec R103, R105). -/
  | encVcW2 (k : Fin 3)
  /-- `ENC_VC` for `W = 4`, `k` in 0..4 (40_beatcodec R104, R105). -/
  | encVcW4 (k : Fin 5)
  /-- `ENC_VC` for `W = 8`, `k` in 0..8 (40_beatcodec R104, R105). -/
  | encVcW8 (k : Fin 9)
  /-- `ENC_VC` for `W = 16`, `k` in 0..16 (40_beatcodec R104, R105). -/
  | encVcW16 (k : Fin 17)
  /-- `ENC_VC` for `W = 32`, `k` in 0..32 (40_beatcodec R104, R105). -/
  | encVcW32 (k : Fin 33)
  /-- `ENC_VC` for `W = 64`, `k` in 0..64 (40_beatcodec R104, R105). -/
  | encVcW64 (k : Fin 65)
  /-- `DEC_VC` for `W = 1`: its operand is the empty field (40_beatcodec R106). -/
  | decVcW1
  /-- `DEC_VC` for `W = 2` (40_beatcodec R107). -/
  | decVcW2 (m : BitVec 1)
  /-- `DEC_VC` for `W = 4` (40_beatcodec R108). -/
  | decVcW4 (m : BitVec 2)
  /-- `DEC_VC` for `W = 8` (40_beatcodec R108). -/
  | decVcW8 (m : BitVec 3)
  /-- `DEC_VC` for `W = 16` (40_beatcodec R108). -/
  | decVcW16 (m : BitVec 4)
  /-- `DEC_VC` for `W = 32` (40_beatcodec R108). -/
  | decVcW32 (m : BitVec 5)
  /-- `DEC_VC` for `W = 64` (40_beatcodec R108). -/
  | decVcW64 (m : BitVec 6)
  /-- `THRESH` of these bytes (41_framebuffer R130). -/
  | thresh (bytes : List Byte)
  /-- `FETCH` into `pend` (41_framebuffer R133). -/
  | fetch
  /-- `SWAP` of `pend` into `cur` (41_framebuffer R135). -/
  | swap
  /-- `BEAT`, with the value for `sof` (42_framestreamer R152). -/
  | beat (sofv : Bool)
  /-- `IDLE_BEAT` (42_framestreamer R153). -/
  | idleBeat
  /-- `REQ_DECIDE` (42_framestreamer R154). -/
  | reqDecide
  /-- `NEXT_STATE` (42_framestreamer R155). -/
  | nextState
  deriving DecidableEq, Repr

end Sys2Proof
end

