-- ==== Sys2Proof/Machine/Dispatch.lean ====
section
/-!
DEFINITION. One arm per operation of the table.
-/

namespace Sys2Proof.Machine

def exec (i : Instr) (s : State) : Host.Outcome State Fault Refusal :=
  match i with
  | .idle _ _ => Sys2Proof.Machine.execIdle s
  | .init _ => Sys2Proof.Machine.execInit s
  | .reqHold => Sys2Proof.Machine.execReqHold s
  | .reqSwap => Sys2Proof.Machine.execReqSwap s
  | .stream _ => Sys2Proof.Machine.execStream s
  | .drain _ => Sys2Proof.Machine.execDrain s
  | .reset _ _ => Sys2Proof.Machine.execReset s
  | .faulted _ => Sys2Proof.Machine.execFaulted s
  | .pack c bytes off => Sys2Proof.Machine.execPack c bytes off s
  | .encVcW1 k => Sys2Proof.Machine.execEncVcW1 k s
  | .encVcW2 k => Sys2Proof.Machine.execEncVcW2 k s
  | .encVcW4 k => Sys2Proof.Machine.execEncVcW4 k s
  | .encVcW8 k => Sys2Proof.Machine.execEncVcW8 k s
  | .encVcW16 k => Sys2Proof.Machine.execEncVcW16 k s
  | .encVcW32 k => Sys2Proof.Machine.execEncVcW32 k s
  | .encVcW64 k => Sys2Proof.Machine.execEncVcW64 k s
  | .decVcW1 => Sys2Proof.Machine.execDecVcW1 s
  | .decVcW2 m => Sys2Proof.Machine.execDecVcW2 m s
  | .decVcW4 m => Sys2Proof.Machine.execDecVcW4 m s
  | .decVcW8 m => Sys2Proof.Machine.execDecVcW8 m s
  | .decVcW16 m => Sys2Proof.Machine.execDecVcW16 m s
  | .decVcW32 m => Sys2Proof.Machine.execDecVcW32 m s
  | .decVcW64 m => Sys2Proof.Machine.execDecVcW64 m s
  | .thresh bytes => Sys2Proof.Machine.execThresh bytes s
  | .fetch => Sys2Proof.Machine.execFetch s
  | .swap => Sys2Proof.Machine.execSwap s
  | .beat sofv => Sys2Proof.Machine.execBeat sofv s
  | .idleBeat => Sys2Proof.Machine.execIdleBeat s
  | .reqDecide => Sys2Proof.Machine.execReqDecide s
  | .nextState => Sys2Proof.Machine.execNextState s

end Sys2Proof.Machine
end

