-- ==== Sys2Proof/Decode.lean ====
section
/-!
DEFINITION. Decoding and encoding of the opcode table's codes (30_encoding R70, R78; spec/opcode_table.json).
The table's codes are three separate spaces: the 6-bit control word `ctl`, the 3-bit width-class code of each
codec function, and the micro rows, which have no code. The same bits mean different rows in different spaces,
so a code is decoded at the piece of logic it is presented to, its `Port` (DESIGN CHOICE, notes/assumptions/5.md).
-/

namespace Sys2Proof

/-- The pieces of logic an operation can be presented to: the step's control logic, the three codec functions,
and the micro-operations. -/
inductive Port where
  | control
  | pack | encVc | decVc
  | thresh | fetch | swap | beat | idleBeat | reqDecide | nextState
  deriving DecidableEq, Repr

/-- The operand wires beside a code. The table gives an operand no bits. -/
inductive Operand where
  | absent
  /-- PACK: the frame's bytes and the offset. -/
  | slice (bytes : List Byte) (off : Nat)
  /-- ENC_VC: the count of valid bytes. -/
  | count (k : Nat)
  /-- DEC_VC: the field value, 0 for the empty field of class 0 (40_beatcodec R108). -/
  | modField (m : Nat)
  /-- THRESH: the bytes from the source. -/
  | bytes (bs : List Byte)
  /-- BEAT: the value for `sof`. -/
  | flag (b : Bool)
  deriving DecidableEq, Repr

/-- A code as presented: where, its bytes (first byte first, bit 0 least significant), its operand wires. -/
structure Encoded where
  port : Port
  code : List Byte
  arg : Operand
  deriving DecidableEq, Repr

/-- Why a code is no operation. -/
inductive DecodeError where
  /-- The port needs a code byte and there is none. -/
  | missingByte
  /-- Bits 7..6 of the control byte are not 0: the control word has 6 bits. -/
  | controlBitsAboveWord
  /-- Bits 7..3 of the class byte are not 0: the class code has 3 bits. -/
  | classBitsAboveCode
  /-- The class code is 111, reserved (30_encoding R70, R79). -/
  | reservedClass
  /-- ENC_VC of a count above `W` (40_beatcodec R105 gives `0..W`). -/
  | countOutOfDomain
  /-- DEC_VC of a value that does not fit in `c` bits (40_beatcodec R106 to R108). -/
  | fieldOutOfDomain
  /-- The operand wires are not those of the port. -/
  | operandMismatch
  deriving DecidableEq, Repr

/-- The 3-bit width-class code (30_encoding R70). -/
def WidthClass.code : WidthClass → BitVec 3
  | .w1 => 0b000#3
  | .w2 => 0b001#3
  | .w4 => 0b010#3
  | .w8 => 0b011#3
  | .w16 => 0b100#3
  | .w32 => 0b101#3
  | .w64 => 0b110#3

/-- The width class of a code; 111 is reserved (30_encoding R70). -/
def WidthClass.ofCode (b : BitVec 3) : Option WidthClass :=
  match b.toNat with
  | 0 => some .w1
  | 1 => some .w2
  | 2 => some .w4
  | 3 => some .w8
  | 4 => some .w16
  | 5 => some .w32
  | 6 => some .w64
  | _ => none

/-- The operation of a 4-bit selector word `sel = {avail, ack, st[1:0]}` (30_encoding R78). -/
def decodeSel (sel : BitVec 4) : Instr :=
  let ack := sel.getLsbD 2
  let st := sel.extractLsb' 0 2
  if sel.getLsbD 3 = false then .idle ack st
  else if st = 0b00#2 then .init ack
  else if st = 0b01#2 then (if ack then .reqSwap else .reqHold)
  else if st = 0b10#2 then .stream ack
  else .drain ack

/-- The operation of a 6-bit control word `ctl = {rst, flt, sel[3:0]}`: reset first, then a recorded fault, then
the selector (30_encoding R78). -/
def decodeCtl (ctl : BitVec 6) : Instr :=
  let sel := ctl.extractLsb' 0 4
  if ctl.getLsbD 5 then .reset (ctl.getLsbD 4) sel
  else if ctl.getLsbD 4 then .faulted sel
  else decodeSel sel

/-- ENC_VC for class `c` and count `k`, refused outside `0..W`. -/
def decodeEnc (c : WidthClass) (k : Nat) : Except DecodeError Instr :=
  match c with
  | .w1 => if h : k < 2 then .ok (.encVcW1 ⟨k, h⟩) else .error .countOutOfDomain
  | .w2 => if h : k < 3 then .ok (.encVcW2 ⟨k, h⟩) else .error .countOutOfDomain
  | .w4 => if h : k < 5 then .ok (.encVcW4 ⟨k, h⟩) else .error .countOutOfDomain
  | .w8 => if h : k < 9 then .ok (.encVcW8 ⟨k, h⟩) else .error .countOutOfDomain
  | .w16 => if h : k < 17 then .ok (.encVcW16 ⟨k, h⟩) else .error .countOutOfDomain
  | .w32 => if h : k < 33 then .ok (.encVcW32 ⟨k, h⟩) else .error .countOutOfDomain
  | .w64 => if h : k < 65 then .ok (.encVcW64 ⟨k, h⟩) else .error .countOutOfDomain

/-- DEC_VC for class `c` and field value `m`, refused where `m` needs more than `c` bits. -/
def decodeDec (c : WidthClass) (m : Nat) : Except DecodeError Instr :=
  if m < 2 ^ c.modW then
    match c with
    | .w1 => .ok .decVcW1
    | .w2 => .ok (.decVcW2 (BitVec.ofNat 1 m))
    | .w4 => .ok (.decVcW4 (BitVec.ofNat 2 m))
    | .w8 => .ok (.decVcW8 (BitVec.ofNat 3 m))
    | .w16 => .ok (.decVcW16 (BitVec.ofNat 4 m))
    | .w32 => .ok (.decVcW32 (BitVec.ofNat 5 m))
    | .w64 => .ok (.decVcW64 (BitVec.ofNat 6 m))
  else .error .fieldOutOfDomain

/-- The width class a class byte names. -/
def decodeClass (b : Byte) : Except DecodeError WidthClass :=
  if b.toNat < 8 then
    match WidthClass.ofCode (b.setWidth 3) with
    | some c => .ok c
    | none => .error .reservedClass
  else .error .classBitsAboveCode

/-- A micro-operation without operand: it takes no code byte. -/
def decodeMicro (i : Instr) (rest : List Byte) : Operand → Except DecodeError (Instr × List Byte)
  | .absent => .ok (i, rest)
  | _ => .error .operandMismatch

/-- The control byte: the 6-bit control word with two zero bits above it. -/
def decodeControlByte : List Byte → Except DecodeError (Instr × List Byte)
  | [] => .error .missingByte
  | b :: rest => if b.toNat < 64 then .ok (decodeCtl (b.setWidth 6), rest) else .error .controlBitsAboveWord

/-- A codec code: one class byte, then `f` of the class. -/
def decodeCodec (f : WidthClass → Except DecodeError Instr) : List Byte → Except DecodeError (Instr × List Byte)
  | [] => .error .missingByte
  | b :: rest =>
    match decodeClass b with
    | .error e => .error e
    | .ok c =>
      match f c with
      | .error e => .error e
      | .ok i => .ok (i, rest)

/-- The operation a code is, with the bytes it leaves; total on any bytes and operand wires. -/
def decode (port : Port) (code : List Byte) (arg : Operand) : Except DecodeError (Instr × List Byte) :=
  match port with
  | .control => match arg with
    | .absent => decodeControlByte code
    | _ => .error .operandMismatch
  | .pack => match arg with
    | .slice bytes off => decodeCodec (fun c => .ok (.pack c bytes off)) code
    | _ => .error .operandMismatch
  | .encVc => match arg with
    | .count k => decodeCodec (fun c => decodeEnc c k) code
    | _ => .error .operandMismatch
  | .decVc => match arg with
    | .modField m => decodeCodec (fun c => decodeDec c m) code
    | _ => .error .operandMismatch
  | .thresh => match arg with
    | .bytes bs => .ok (.thresh bs, code)
    | _ => .error .operandMismatch
  | .beat => match arg with
    | .flag b => .ok (.beat b, code)
    | _ => .error .operandMismatch
  | .fetch => decodeMicro .fetch code arg
  | .swap => decodeMicro .swap code arg
  | .idleBeat => decodeMicro .idleBeat code arg
  | .reqDecide => decodeMicro .reqDecide code arg
  | .nextState => decodeMicro .nextState code arg

/-- The selector word `{avail, ack, st[1:0]}`. -/
def selWord (avail ack : Bool) (st : BitVec 2) : BitVec 4 :=
  BitVec.ofBool avail ++ BitVec.ofBool ack ++ st

/-- The control word `{rst, flt, sel[3:0]}`. -/
def ctlWordOf (rst flt : Bool) (sel : BitVec 4) : BitVec 6 :=
  BitVec.ofBool rst ++ BitVec.ofBool flt ++ sel

/-- A control operation's code: one byte, the two bits above the control word zero. -/
def encodeControl (ctl : BitVec 6) : Encoded :=
  { port := .control, code := [ctl.setWidth 8], arg := .absent }

/-- A codec operation's code: one byte, the five bits above the class code zero. -/
def encodeCodec (port : Port) (c : WidthClass) (arg : Operand) : Encoded :=
  { port := port, code := [c.code.setWidth 8], arg := arg }

/-- A micro-operation has no code byte. -/
def encodeMicro (port : Port) (arg : Operand) : Encoded :=
  { port := port, code := [], arg := arg }

/-- The code of an operation, from the same tables as `decode`. -/
def encode : Instr → Encoded
  | .idle ack st => encodeControl (ctlWordOf false false (selWord false ack st))
  | .init ack => encodeControl (ctlWordOf false false (selWord true ack 0b00#2))
  | .reqHold => encodeControl (ctlWordOf false false (selWord true false 0b01#2))
  | .reqSwap => encodeControl (ctlWordOf false false (selWord true true 0b01#2))
  | .stream ack => encodeControl (ctlWordOf false false (selWord true ack 0b10#2))
  | .drain ack => encodeControl (ctlWordOf false false (selWord true ack 0b11#2))
  | .reset flt sel => encodeControl (ctlWordOf true flt sel)
  | .faulted sel => encodeControl (ctlWordOf false true sel)
  | .pack c bytes off => encodeCodec .pack c (.slice bytes off)
  | .encVcW1 k => encodeCodec .encVc .w1 (.count k.val)
  | .encVcW2 k => encodeCodec .encVc .w2 (.count k.val)
  | .encVcW4 k => encodeCodec .encVc .w4 (.count k.val)
  | .encVcW8 k => encodeCodec .encVc .w8 (.count k.val)
  | .encVcW16 k => encodeCodec .encVc .w16 (.count k.val)
  | .encVcW32 k => encodeCodec .encVc .w32 (.count k.val)
  | .encVcW64 k => encodeCodec .encVc .w64 (.count k.val)
  | .decVcW1 => encodeCodec .decVc .w1 (.modField 0)
  | .decVcW2 m => encodeCodec .decVc .w2 (.modField m.toNat)
  | .decVcW4 m => encodeCodec .decVc .w4 (.modField m.toNat)
  | .decVcW8 m => encodeCodec .decVc .w8 (.modField m.toNat)
  | .decVcW16 m => encodeCodec .decVc .w16 (.modField m.toNat)
  | .decVcW32 m => encodeCodec .decVc .w32 (.modField m.toNat)
  | .decVcW64 m => encodeCodec .decVc .w64 (.modField m.toNat)
  | .thresh bs => encodeMicro .thresh (.bytes bs)
  | .fetch => encodeMicro .fetch .absent
  | .swap => encodeMicro .swap .absent
  | .beat b => encodeMicro .beat (.flag b)
  | .idleBeat => encodeMicro .idleBeat .absent
  | .reqDecide => encodeMicro .reqDecide .absent
  | .nextState => encodeMicro .nextState .absent

/-- The bytes of a word, the least significant byte first, at least one (spec/opcode_table.json numbers bit 0 as
the least significant bit). -/
def bytesOfWord : Nat → Nat → List Byte
  | 0, w => [BitVec.ofNat 8 w]
  | n + 1, w => BitVec.ofNat 8 w :: bytesOfWord n (w / 256)

/-- The operation a word is at the control port, the only port the block presents a word to at an edge. The codec
rows' class codes stand in the same bits, so their words read here as selector words (notes/assumptions/5.md). -/
def decodeTableWord (nbits w : Nat) : Option Instr :=
  match decode .control (bytesOfWord (nbits / 8 - 1) w) .absent with
  | .ok (i, _) => some i
  | .error _ => none

end Sys2Proof
end

