-- ==== Sys2Proof/Machine/Fetch.lean ====
section
/-!
DEFINITION. Which operation an edge performs (42_framestreamer R150, 30_encoding R78): the control word
`ctl = {rst, flt, avail, ack, st}` is formed from the inputs of the edge and the state, and decoded. It plays the
part that fetching an instruction plays elsewhere; the block has no program (10_state R31).
-/

namespace Sys2Proof.Machine

/-- The 2-bit state code (30_encoding R77). DESIGN CHOICE (notes/assumptions/9.md): of a wider code's unused value the
selector sees the two low bits. -/
def St.code : St → BitVec 2
  | .init => 0b00#2
  | .requesting => 0b01#2
  | .streaming => 0b10#2
  | .draining => 0b11#2
  | .unused n => BitVec.ofNat 2 n

/-- The state of a 2-bit code: all four codes are states (30_encoding R77). -/
def St.ofCode (b : BitVec 2) : St :=
  if b = 0b00#2 then .init
  else if b = 0b01#2 then .requesting
  else if b = 0b10#2 then .streaming
  else .draining

/-- `st` is one of the four states (42_framestreamer R162). -/
def St.recognised : St → Bool
  | .init | .requesting | .streaming | .draining => true
  | .unused _ => false

/-- The inputs at the next clock edge: the next listed ones, else the free value of this edge
(notes/assumptions/1.md). -/
def State.edgeIn (s : State) : Edge :=
  match s.stimulus with
  | e :: _ => e
  | [] => Config.freeEdge s.edges

/-- The selector word of an edge (30_encoding R78). -/
def State.selWordAt (s : State) (e : Edge) : BitVec 4 := selWord e.avail e.ack s.st.code

/-- The control word of an edge (spec/opcode_table.json, RESET and FAULTED). -/
def State.ctlWordAt (s : State) (e : Edge) : BitVec 6 := ctlWordOf e.rst s.fault.isSome (s.selWordAt e)

/-- The step is active: `rst = 0`, no recorded fault, `avail = 1` (42_framestreamer R150, R175). -/
def State.activeAt (s : State) (e : Edge) : Bool := !e.rst && s.fault.isNone && e.avail

/-- What an edge selects. -/
inductive Selected where
  /-- A row of the table. -/
  | op (i : Instr)
  /-- An active step in an unrecognised state, which no control word expresses (42_framestreamer R162). -/
  | unrecognised
  deriving DecidableEq, Repr

/-- The selection of 42_framestreamer R150, in the order of 60_exceptions R208. -/
def State.selectAt (s : State) (e : Edge) : Selected :=
  if s.activeAt e && !s.st.recognised then .unrecognised
  else .op (decodeCtl (s.ctlWordAt e))

/-- What the next edge selects. -/
def State.selected (s : State) : Selected := s.selectAt s.edgeIn

/-- An active step in an unrecognised state raises `UnrecognisedState` (42_framestreamer R162). -/
def raiseUnrecognised (s : State) : State := takeFault s (.invariantFailure .unrecognisedState) s

/-- The operations whose step may call the frame source (60_exceptions R201). -/
def mayFetch : Instr → Bool
  | .init _ | .reqSwap | .stream _ => true
  | _ => false

/-- The environment and the sequencing state in which the next edge's control word is `ctl`: its inputs stand
first in the stimulus, `st` has the code of its low two bits, a fault is recorded exactly when its `flt` bit is 1.
An operation that may fetch needs a source that can answer (70_reset_and_hazards R232); where no answer is listed,
an empty frame is (notes/assumptions/6.md). -/
def loadControl (s : State) (ctl : BitVec 6) : State :=
  { s with
    st := St.ofCode (ctl.extractLsb' 0 2)
    fault := if ctl.getLsbD 4 then some (s.fault.getD .sourceError) else none
    stimulus := { rst := ctl.getLsbD 5, avail := ctl.getLsbD 3, ack := ctl.getLsbD 2 } :: s.stimulus
    answers := if mayFetch (decodeCtl ctl) && s.answers.isEmpty then [.frame []] else s.answers }

/-- `loadControl` of the first byte of a word; a byte that is no control word changes nothing. -/
def loadTableWord (s : State) (w : Nat) : State :=
  if w % 256 < 64 then loadControl s (BitVec.ofNat 6 (w % 256)) else s

end Sys2Proof.Machine
end

