-- ==== Sys2Proof/Machine/Step.lean ====
section
/-!
DEFINITION. The step at one clock edge (42_framestreamer R150): the edge's inputs are used up and the selected
operation runs.
-/

namespace Sys2Proof.Machine

/-- One clock edge (00_scope R8, 42_framestreamer R150). -/
def step (s : State) : Host.Outcome State Fault Refusal :=
  match s.selected with
  | .op i => exec i s.tick
  | .unrecognised => .next (raiseUnrecognised s.tick)

/-- `s` with its next edge performing the operation whose control word is `w` (notes/assumptions/6.md). -/
def State.withFetchWord (s : State) (_nbits w : Nat) : State := loadTableWord s w

end Sys2Proof.Machine
end

