-- ==== Sys2Proof/Machine/Ports.lean ====
section
/-!
DEFINITION. The output side of the block: the ports (30_encoding R83), the fault code (R84), the concatenated beat
word (R73, R74) and the diagnostic text dump (R76). Everything here is a function of the state.
-/

namespace Sys2Proof.Machine

/-- The `fault` output code (30_encoding R84). -/
def faultCode : Option BlockFault → BitVec 2
  | none => 0b00#2
  | some .sourceError => 0b01#2
  | some (.invariantFailure _) => 0b10#2
  | some (.frameTooLong _) => 0b11#2

/-- The output ports (30_encoding R83). -/
structure Outputs where
  usr : Tag
  err : Bool
  val : Bool
  sof : Bool
  eof : Bool
  /-- Absent for `c = 0`. -/
  mod : Option ModField
  dat : Dat
  req : Bool
  bits : Nat
  fault : BitVec 2
  deriving DecidableEq, Repr

/-- The `mod` field as a wire: absent for `c = 0` (30_encoding R72). -/
def modPort (c : WidthClass) (b : Beat) : Option ModField := if c.modW = 0 then none else some b.mod

/-- What the block drives from its registers at every edge (42_framestreamer R174). -/
def State.outputs (s : State) : Outputs :=
  { usr := s.out.usr, err := s.out.err, val := s.out.val, sof := s.out.sof, eof := s.out.eof
    mod := modPort s.cfg.c s.out, dat := s.out.dat, req := s.req, bits := s.bits, fault := faultCode s.fault }

/-- The `src_call` event of a step from `before` to `after`: it carries HANDLER and PAYLOAD (30_encoding R83). -/
def srcCall (before after : State) : Option (Nat × List Byte) :=
  if after.calls = before.calls then none else some (before.cfg.handler, before.cfg.payload)

/-- One bit as a beat word with the bit at position `pos`. -/
def wireBit (b : Bool) (pos : Nat) : WireWord := (BitVec.ofBool b).setWidth 554 <<< pos

/-- The beat word `{usr, err, val, sof, eof, mod, dat}`, `dat` at bit 0 (30_encoding R73). -/
def wireWord (c : WidthClass) (b : Beat) : WireWord :=
  (b.usr.setWidth 554 <<< (c.datW + c.modW + 4)) |||
  wireBit b.err (c.datW + c.modW + 3) |||
  wireBit b.val (c.datW + c.modW + 2) |||
  wireBit b.sof (c.datW + c.modW + 1) |||
  wireBit b.eof (c.datW + c.modW) |||
  (b.mod.setWidth 554 <<< c.datW) |||
  b.dat.setWidth 554

/-- The low `n` bits of a word, the bits above them 0. -/
def lowBits {w : Nat} (x : BitVec w) (n : Nat) : BitVec w := BitVec.ofNat w (x.toNat % 2 ^ n)

/-- The beat of a beat word, by the bit positions of 30_encoding R73. -/
def beatOfWire (c : WidthClass) (w : WireWord) : Beat :=
  { usr := (w >>> (c.datW + c.modW + 4)).setWidth 32
    err := w.getLsbD (c.datW + c.modW + 3)
    val := w.getLsbD (c.datW + c.modW + 2)
    sof := w.getLsbD (c.datW + c.modW + 1)
    eof := w.getLsbD (c.datW + c.modW)
    mod := lowBits ((w >>> c.datW).setWidth 6) c.modW
    dat := lowBits (w.setWidth 512) c.datW }

/-! ### Text dump -/

/-- A hexadecimal digit in the case the format asks for. -/
def hexDigit (upperCase : Bool) (d : Nat) : Char :=
  if d < 10 then Char.ofNat (48 + d) else Char.ofNat ((if upperCase then 55 else 87) + d)

/-- The `k` lowest hexadecimal digits of `n`, most significant first. -/
def hexDigits (upperCase : Bool) : Nat → Nat → List Char
  | 0, _ => []
  | k + 1, n => hexDigits upperCase k (n / 16) ++ [hexDigit upperCase (n % 16)]

/-- A value of `width` bits in the open digit format (30_encoding R76, 92_eei_decisions D29). -/
def hexValue (fmt : DumpFormat) (width n : Nat) : List Char :=
  let ds := hexDigits fmt.upperCase ((width + 3) / 4) n
  if fmt.padded then ds
  else match ds.dropWhile (fun ch => ch = '0') with
    | [] => ['0']
    | rest => rest

/-- One field, `name = 0x<value>` (30_encoding R76). -/
def dumpField (fmt : DumpFormat) (name : String) (width n : Nat) : List Char :=
  name.toList ++ " = 0x".toList ++ hexValue fmt width n

/-- The fields of a beat in wire order, `mod` omitted when `c = 0` (30_encoding R76). -/
def dumpFields (cfg : Config) (b : Beat) : List (List Char) :=
  let one (x : Bool) : Nat := if x then 1 else 0
  let f := dumpField cfg.dumpFormat
  [f "usr" 32 b.usr.toNat, f "err" 1 (one b.err), f "val" 1 (one b.val), f "sof" 1 (one b.sof),
    f "eof" 1 (one b.eof)] ++
  (if cfg.c.modW = 0 then [] else [f "mod" cfg.c.modW b.mod.toNat]) ++
  [f "dat" cfg.c.datW b.dat.toNat]

/-- The diagnostic text of a beat (30_encoding R76). -/
def textDump (cfg : Config) (b : Beat) : List Char :=
  List.intercalate cfg.dumpFormat.separator (dumpFields cfg b)

end Sys2Proof.Machine
end

