-- ==== Sys2Proof/Machine/Run.lean ====
section
/-!
DEFINITION. What is seen of a run (42_framestreamer R175, 70_reset_and_hazards R239, 92_eei_decisions D27): which steps
emit a beat, the beat and `req` of every step, the final state, and the runs that begin with a reset edge.
-/

namespace Sys2Proof.Machine

/-! ### One step -/

/-- The operations that emit a beat (42_framestreamer R175). -/
def emits : Instr → Bool
  | .reqSwap | .stream _ | .drain _ => true
  | _ => false

/-- The step from `s` is a step of one of the emitting operations. -/
def State.selectsBeat (s : State) : Bool :=
  match s.selected with
  | .op i => emits i
  | .unrecognised => false

/-- The beat the step from `s` emits: the value of `out` after an active step of an emitting operation that raises
no fault (42_framestreamer R175). -/
def emitted (s : State) : Option Beat :=
  match step s with
  | .next t => if s.selectsBeat && t.fault.isNone then some t.out else none
  | _ => none

/-! ### The steps of a run -/

/-- What one step shows, whichever operation it performs: the beat it emits, if it emits one, and the value of `req`
after it (42_framestreamer R175). -/
structure StepView where
  beat : Option Beat
  req : Bool
  deriving DecidableEq, Repr

/-- The observation of a run: what each step shows, in order, and the final state (70_reset_and_hazards R239). -/
structure Observation where
  steps : List StepView
  final : State
  deriving DecidableEq, Repr

/-- The sequence of emitted beats (42_framestreamer R175). -/
def Observation.beats (o : Observation) : List Beat := o.steps.filterMap StepView.beat

/-- The value of `req` after each step (92_eei_decisions D27). -/
def Observation.reqs (o : Observation) : List Bool := o.steps.map StepView.req

/-- `fault = none` at the end of the run: the premise a claim about a run takes (70_reset_and_hazards R239). -/
def Observation.faultFree (o : Observation) : Bool := o.final.fault.isNone

/-- The observation of `k` edges from `s`. A step that stopped the model would end it there; none does. -/
def observation : Nat → State → Observation
  | 0, s => { steps := [], final := s }
  | k + 1, s =>
    match step s with
    | .next t =>
      let o := observation k t
      { steps := { beat := emitted s, req := t.req } :: o.steps, final := o.final }
    | _ => { steps := [], final := s }

/-- A step that emits a beat, as the beat with `req` after it (42_framestreamer R177). -/
def StepView.beatWithReq (v : StepView) : Option (Beat × Bool) := v.beat.map fun b => (b, v.req)

/-- The emitted beats of `k` edges from `s`, each with `req` after it: the part of the observation that the harness
does not move in time (42_framestreamer R177). -/
def observe (k : Nat) (s : State) : List (Beat × Bool) := (observation k s).steps.filterMap StepView.beatWithReq

/-! ### Runs -/

/-- A run: the configuration, the inputs at each of its edges, and the source's answers in call order
(70_reset_and_hazards R239, 30_encoding R82). Its last edge is the last of `edges`. -/
structure Run where
  cfg : Config
  edges : List Edge
  answers : List Answer
  deriving DecidableEq, Repr

/-- A run starts with at least one `rst = 1` edge (70_reset_and_hazards R239). -/
def Run.startsWithReset (r : Run) : Bool :=
  match r.edges with
  | e :: _ => e.rst
  | [] => false

/-- The block in state `before`, built with the run's configuration, with the run's inputs and answers to come and
no edge and no call counted yet (notes/assumptions/25.md). -/
def Run.load (r : Run) (before : State) : State :=
  { before with cfg := r.cfg, stimulus := r.edges, edges := 0, answers := r.answers, calls := 0 }

/-- The observation of a run that finds the block in the state `before`. The first edge resets it, so `before` does
not matter (law `Run.observation_before`). -/
def Run.observation (r : Run) (before : State) : Observation :=
  Sys2Proof.Machine.observation r.edges.length (r.load before)

end Sys2Proof.Machine
end

