-- ==== Sys2Proof/WellFormed.lean ====
section
/-!
DEFINITION. Which constructions and which operations are well formed. The operand domains of ENC_VC and DEC_VC
are types (`Fin`, `BitVec`), so an operand outside the spec's domain cannot be written.
-/

namespace Sys2Proof

/-- A register of `width` bits holds `n`; `none` is an unbounded register. -/
def fitsWidth (width : Option Nat) (n : Nat) : Bool :=
  match width with
  | none => true
  | some b => decide (n < 2 ^ b)

/-- The lower bounds on the open widths (00_scope R7): `CURSOR_W` is at least `bitlen(NMAX + W)` and `BITS_W` at
least `bitlen(8 * NMAX)`. With `NMAX` unbounded no finite width is enough. -/
def Config.wellFormed (cfg : Config) : Bool :=
  match cfg.nmax with
  | none => cfg.cursorW.isNone && cfg.bitsW.isNone
  | some n => fitsWidth cfg.cursorW (n + cfg.c.bytes) && fitsWidth cfg.bitsW (8 * n)

/-- The width class a codec row is bound to; `none` for the rows that serve every class. -/
def Instr.codecClass : Instr → Option WidthClass
  | .pack c _ _ => some c
  | .encVcW1 _ => some .w1
  | .encVcW2 _ => some .w2
  | .encVcW4 _ => some .w4
  | .encVcW8 _ => some .w8
  | .encVcW16 _ => some .w16
  | .encVcW32 _ => some .w32
  | .encVcW64 _ => some .w64
  | .decVcW1 => some .w1
  | .decVcW2 _ => some .w2
  | .decVcW4 _ => some .w4
  | .decVcW8 _ => some .w8
  | .decVcW16 _ => some .w16
  | .decVcW32 _ => some .w32
  | .decVcW64 _ => some .w64
  | .idle _ _ | .init _ | .reqHold | .reqSwap | .stream _ | .drain _ | .reset _ _ | .faulted _
  | .thresh _ | .fetch | .swap | .beat _ | .idleBeat | .reqDecide | .nextState => none

/-- An operation of a block of class `c`: a codec row is one only for the block's own class, since the width
"never changes" (00_scope R3). A row of another class is a row of another construction. -/
def Instr.wellFormed (c : WidthClass) (i : Instr) : Bool :=
  match i.codecClass with
  | none => true
  | some c' => decide (c' = c)

end Sys2Proof
end

