-- ==== Sys2Proof/Safety.lean ====
section
/-!
DEFINITION. The terms claims use beside the observation of Machine/Run.lean: bubbles (42_framestreamer R176), the
beats a frame must give (R167 to R170, R173), and the invariants of reachable states (10_state R34).
-/

namespace Sys2Proof.Machine

/-! ### Kinds of steps, and the edges to come -/

/-- The next step is active (42_framestreamer R175). -/
def State.active (s : State) : Bool := s.activeAt s.edgeIn

/-- The step from `s` raises a fault (60_exceptions R204). -/
def raises (s : State) : Bool :=
  match step s with
  | .next t => s.fault.isNone && t.fault.isSome
  | _ => false

/-- A bubble: an active step that emits no beat, after the first frame has become current (42_framestreamer R176). -/
def isBubble (s : State) : Bool := s.active && s.cur.isSome && (emitted s).isNone

/-- The inputs of the edge `j` edges after the next one. -/
def State.edgeInAfter (s : State) (j : Nat) : Edge :=
  match s.stimulus[j]? with
  | some e => e
  | none => Config.freeEdge (s.edges + j)

/-- `s` with these inputs at the edges to come. -/
def State.withEdges (s : State) (es : List Edge) : State := { s with stimulus := es }

/-- No reset at any of the next `k` edges. -/
def noResetFor (k : Nat) (s : State) : Prop := ∀ j, j < k → (s.edgeInAfter j).rst = false

/-- Two states with the same configuration and source whose spec state agrees: only the harness's inputs may
differ. -/
def sameBlock (s t : State) : Prop :=
  s.cfg = t.cfg ∧ s.st = t.st ∧ s.cur = t.cur ∧ s.pend = t.pend ∧ s.cursor = t.cursor ∧ s.req = t.req ∧
  s.out = t.out ∧ s.bits = t.bits ∧ s.fault = t.fault ∧ s.answers = t.answers ∧ s.calls = t.calls

/-! ### Which fault a step raises -/

/-- The faults of FETCH in the order of its checks, with the slot full or not (41_framebuffer R133). -/
def fetchFault (s : State) (pendFull : Bool) : Option BlockFault :=
  if pendFull then some (.invariantFailure .pendingOccupied)
  else match s.nextAnswer with
    | .sourceError => some .sourceError
    | .frame bytes => if fitsSlot s.cfg bytes.length then none else some (.frameTooLong bytes.length)

/-- The first check of an operation that fails, in the order of 60_exceptions R208. -/
def firstFault (i : Instr) (s : State) : Option BlockFault :=
  match i with
  | .init _ | .fetch => fetchFault s s.pend.isSome
  | .swap => if s.pend.isNone then some (.invariantFailure .pendingEmpty) else none
  | .reqSwap =>
    match s.pend with
    | none => some (.invariantFailure .pendingEmpty)
    | some f => if f.prefetchOffset = 0 then fetchFault s false else none
  | .reqDecide =>
    match s.cur with
    | none => none
    | some f => if f.prefetchOffset ≤ s.cursor then fetchFault s s.pend.isSome else none
  | .stream _ =>
    match s.cur with
    | none => some (.invariantFailure .noCurrent)
    | some f =>
      if f.lastOffset ≤ s.cursor then some (.invariantFailure .cursorOutOfRange)
      else if f.prefetchOffset ≤ min (s.cursor + s.cfg.c.bytes) f.len then fetchFault s s.pend.isSome
      else none
  | .drain _ =>
    match s.cur with
    | none => some (.invariantFailure .noCurrent)
    | some f => if f.lastOffset ≤ s.cursor then some (.invariantFailure .cursorOutOfRange) else none
  | _ => none

/-! ### Which operations write a register -/

/-- The fields of the state a frame speaks of. -/
inductive Reg where
  | st | cur | pend | cursor | req | out | bits | fault | source | tap
  deriving DecidableEq, Repr

/-- The operations that may write a field (10_state R21 to R28, R32; 41_framebuffer R133, R134). -/
def mayWrite (r : Reg) (i : Instr) : Bool :=
  match r, i with
  | _, .reset _ _ => decide (r ≠ .source)
  | .st, .init _ | .st, .reqSwap | .st, .stream _ | .st, .drain _ | .st, .nextState => true
  | .cur, .reqSwap | .cur, .swap => true
  | .pend, .init _ | .pend, .reqSwap | .pend, .stream _ | .pend, .fetch | .pend, .swap | .pend, .reqDecide => true
  | .cursor, .reqSwap | .cursor, .stream _ | .cursor, .drain _ => true
  | .req, .init _ | .req, .reqSwap | .req, .stream _ | .req, .reqDecide => true
  | .out, .init _ | .out, .reqHold | .out, .reqSwap | .out, .stream _ | .out, .drain _ | .out, .beat _ => true
  | .out, .idleBeat | .out, .nextState => true
  | .bits, .reqSwap => true
  | .fault, .init _ | .fault, .reqSwap | .fault, .stream _ | .fault, .drain _ | .fault, .fetch => true
  | .fault, .swap | .fault, .reqDecide => true
  | .source, .init _ | .source, .reqSwap | .source, .stream _ | .source, .fetch | .source, .reqDecide => true
  | .tap, i => i.codecClass.isSome || (match i with | .thresh _ => true | _ => false)
  | _, _ => false

/-! ### What a frame must give -/

/-- `B(N) = max(1, ceil(N / W))` (42_framestreamer R167). -/
def beatCount (c : WidthClass) (n : Nat) : Nat := max 1 ((n + c.bytes - 1) / c.bytes)

/-- Beat `j` of a frame, and `req` after it, from 42_framestreamer R167, R168, R170 and R173. -/
def frameBeat (cfg : Config) (bytes : List Byte) (j : Nat) : Beat × Bool :=
  let last := beatCount cfg.c bytes.length - 1
  ({ usr := cfg.tag
     err := false
     val := true
     sof := decide (j = 0)
     eof := decide (j = last)
     mod := if j = last then BitVec.ofNat 6 (bytes.length % cfg.c.bytes) else 0
     dat := packWord cfg.c bytes (j * cfg.c.bytes) },
   decide (last ≤ j + 1))

/-- The beats of a frame in order. -/
def frameBeats (cfg : Config) (bytes : List Byte) : List (Beat × Bool) :=
  (List.range (beatCount cfg.c bytes.length)).map (frameBeat cfg bytes)

/-- The first `DEC_VC(mod)` lanes of a beat (40_beatcodec R111). -/
def validLanes (c : WidthClass) (b : Beat) : List Byte :=
  (List.range (decVc c b.mod)).map (lane c b.dat)

/-! ### Invariants -/

/-- A slot holds a frame as THRESH makes it, no longer than `NMAX` (41_framebuffer R130, R131, 20_memory R52). -/
def slotWf (cfg : Config) : Option Frame → Bool
  | none => true
  | some f =>
    decide (f.lastOffset = f.len - cfg.c.bytes) && decide (f.prefetchOffset = f.len - 2 * cfg.c.bytes) &&
    fitsSlot cfg f.len

/-- The canonical form of the block's memory: both slots (20_memory R50). -/
def Memory.wf (s : State) : Bool := slotWf s.cfg s.cur && slotWf s.cfg s.pend

/-- A beat's class-dependent fields hold nothing above their width (30_encoding R71). -/
def beatFits (c : WidthClass) (b : Beat) : Bool :=
  decide (b.mod.toNat < 2 ^ c.modW) && decide (b.dat.toNat < 2 ^ c.datW)

/-- The output register's invariants: `err = 0` (42_framestreamer R161), `usr = TAG` (R152, R153), and no bit above
a field's width. -/
def OutInv (s : State) : Prop :=
  s.out.err = false ∧ s.out.usr = s.cfg.tag ∧ beatFits s.cfg.c s.out = true

/-- The `bits` register: `8 * cur.N`, and 0 before the first swap (10_state R27). -/
def BitsInv (s : State) : Prop :=
  match s.cur with
  | none => s.bits = 0
  | some f => s.bits = 8 * f.len

/-- The table of 10_state R34. -/
def StInv (s : State) : Prop :=
  match s.st with
  | .init => s.cur = none ∧ s.pend = none ∧ s.req = false ∧ s.cursor = 0
  | .requesting =>
    s.pend ≠ none ∧ s.req = true ∧
    (s.cur = none → s.cursor = 0) ∧
    ∀ f, s.cur = some f → s.cursor = s.cfg.c.bytes * (beatCount s.cfg.c f.len - 1) ∧ f.lastOffset ≤ s.cursor
  | .streaming => s.pend = none ∧ s.req = false ∧ ∃ f, s.cur = some f ∧ s.cursor < f.prefetchOffset
  | .draining =>
    s.pend ≠ none ∧ s.req = true ∧ ∃ f, s.cur = some f ∧ f.prefetchOffset ≤ s.cursor ∧ s.cursor < f.lastOffset
  | .unused _ => False

/-- The cursor sentence of 10_state R34. -/
def CursorInv (s : State) : Prop :=
  s.cursor % s.cfg.c.bytes = 0 ∧ ∀ f, s.cur = some f → s.cursor ≤ f.len

/-- The invariant of reachable states (10_state R34). -/
def State.Inv (s : State) : Prop := Memory.wf s = true ∧ StInv s ∧ CursorInv s

end Sys2Proof.Machine
end

