-- ==== Sys2Proof/Certificates/Slice0/Obligations.lean ====
section
/-!
DEFINITION. The statements for the provers. Each docstring names the rule of spec/ it formalises. A statement about
a value that a list in State does not give (an answer of the source, an input of the harness) holds for every value
of the free constants of Config.
-/

open Sys2Proof Sys2Proof.Machine

/-! ### Encodings -/

/-- Decoding the code of any operation gives that operation back, with nothing left over (30_encoding sections 1, 6;
opcode_table.json; the ports are the model's choice, log 5). -/
def Obligations.DecodeEncodeAgree : Prop :=
  ∀ i : Instr, decode (encode i).port (encode i).code (encode i).arg = .ok (i, [])

/-- Encoding the operation of a control word gives that control word back: no bit of any of the 64 is dropped
(30_encoding section 6; opcode_table.json). -/
def Obligations.EncodeDecodeControlAgree : Prop :=
  ∀ w : BitVec 6, encode (decodeCtl w) = encodeControl w

/-- Words written out from opcode_table.json decode to their rows (model's choice of ports: log 5). -/
def Obligations.SpecWordsDecode : Prop :=
  decodeTableWord 8 0b0101 = some (.idle true 0b01#2) ∧
  decodeTableWord 8 0b1100 = some (.init true) ∧
  decodeTableWord 8 0b1001 = some .reqHold ∧
  decodeTableWord 8 0b1101 = some .reqSwap ∧
  decodeTableWord 8 0b1010 = some (.stream false) ∧
  decodeTableWord 8 0b1111 = some (.drain true) ∧
  decodeTableWord 8 0b111101 = some (.reset true 0b1101#4) ∧
  decodeTableWord 8 0b011011 = some (.faulted 0b1011#4) ∧
  decodeTableWord 8 0b1000000 = none ∧
  decode .encVc [0b011#8] (.count 7) = .ok (.encVcW8 7, []) ∧
  decode .decVc [0b110#8] (.modField 63) = .ok (.decVcW64 63#6, []) ∧
  decode .pack [0b000#8] (.slice [0xAB#8] 1) = .ok (.pack .w1 [0xAB#8] 1, []) ∧
  decode .nextState [] .absent = .ok (.nextState, []) ∧
  decode .decVc [0b111#8] (.modField 0) = .error .reservedClass

/-- 30_encoding R78: the bits of the selector word, the two conditions decided before it, and its table. -/
def Obligations.SelectorWordSelectsOperation : Prop :=
  (∀ (avail ack : Bool) (st : BitVec 2),
    (selWord avail ack st).getLsbD 3 = avail ∧ (selWord avail ack st).getLsbD 2 = ack ∧
    (selWord avail ack st).extractLsb' 0 2 = st) ∧
  (∀ (flt : Bool) (sel : BitVec 4), decodeCtl (ctlWordOf true flt sel) = .reset flt sel) ∧
  (∀ sel : BitVec 4, decodeCtl (ctlWordOf false true sel) = .faulted sel) ∧
  (∀ sel : BitVec 4, decodeCtl (ctlWordOf false false sel) = decodeSel sel) ∧
  (∀ (ack : Bool) (st : BitVec 2), decodeSel (selWord false ack st) = .idle ack st) ∧
  (∀ ack : Bool, decodeSel (selWord true ack 0b00#2) = .init ack) ∧
  decodeSel (selWord true false 0b01#2) = .reqHold ∧
  decodeSel (selWord true true 0b01#2) = .reqSwap ∧
  (∀ ack : Bool, decodeSel (selWord true ack 0b10#2) = .stream ack) ∧
  (∀ ack : Bool, decodeSel (selWord true ack 0b11#2) = .drain ack)

/-- 30_encoding R70: codes 000 to 110 are the seven classes with `W = 2^c`; 111 is reserved: it names no class, and no
class has it. -/
def Obligations.WidthClassCodes : Prop :=
  (∀ b : BitVec 3, b ≠ 0b111#3 → ∃ c, WidthClass.ofCode b = some c ∧ c.code = b ∧ c.bytes = 2 ^ b.toNat) ∧
  WidthClass.ofCode 0b111#3 = none ∧
  (∀ c : WidthClass, c.code ≠ 0b111#3 ∧ WidthClass.ofCode c.code = some c ∧ c.bytes = 2 ^ c.index ∧ c.index ≤ 6)

/-- 30_encoding R73: the bit positions of the beat word, for a beat whose fields fit their widths. -/
def Obligations.BeatWordPositions : Prop :=
  ∀ (c : WidthClass) (b : Beat), beatFits c b = true →
    (wireWord c b).toNat < 2 ^ (8 * c.bytes + c.index + 36) ∧
    (wireWord c b).toNat % 2 ^ (8 * c.bytes) = b.dat.toNat ∧
    (wireWord c b).toNat / 2 ^ (8 * c.bytes) % 2 ^ c.index = b.mod.toNat ∧
    (wireWord c b).getLsbD (8 * c.bytes + c.index) = b.eof ∧
    (wireWord c b).getLsbD (8 * c.bytes + c.index + 1) = b.sof ∧
    (wireWord c b).getLsbD (8 * c.bytes + c.index + 2) = b.val ∧
    (wireWord c b).getLsbD (8 * c.bytes + c.index + 3) = b.err ∧
    (wireWord c b).toNat / 2 ^ (8 * c.bytes + c.index + 4) = b.usr.toNat

/-- A beat read back from its word is the beat (30_encoding section 3). -/
def Obligations.BeatWordRoundTrip : Prop :=
  ∀ (c : WidthClass) (b : Beat), beatFits c b = true → beatOfWire c (wireWord c b) = b

/-- 30_encoding R84: the fault code. -/
def Obligations.FaultOutputCodes : Prop :=
  ∀ s : State,
    (s.fault = none → s.outputs.fault = 0b00#2) ∧
    (s.fault = some .sourceError → s.outputs.fault = 0b01#2) ∧
    (∀ r, s.fault = some (.invariantFailure r) → s.outputs.fault = 0b10#2) ∧
    (∀ n, s.fault = some (.frameTooLong n) → s.outputs.fault = 0b11#2)

/-! ### The step -/

/-- When the control byte of the next edge decodes to an operation, and the state is not an unrecognised one taking
an active step, the step is `exec` of it on the state with the edge's inputs used up (model's form of the step:
log 1, log 9). -/
def Obligations.StepRunsDecodedOperation : Prop :=
  ∀ (s : State) (i : Instr),
    (s.active = true → s.st.recognised = true) →
    decode .control [(s.ctlWordAt s.edgeIn).setWidth 8] .absent = .ok (i, []) →
    step s = exec i s.tick

/-- 42_framestreamer R150: which arm a clock edge runs (`tick` uses up the inputs of the edge: the form of the model,
log 1). -/
def Obligations.StepChoosesArm : Prop :=
  ∀ s : State,
    (s.edgeIn.rst = true → ∀ flt sel, step s = exec (.reset flt sel) s.tick) ∧
    (s.edgeIn.rst = false → s.fault ≠ none → step s = .next s.tick) ∧
    (s.edgeIn.rst = false → s.fault = none → s.edgeIn.avail = false → step s = .next s.tick) ∧
    (s.edgeIn.rst = false → s.fault = none → s.edgeIn.avail = true →
      (s.st = .init → step s = exec (.init s.edgeIn.ack) s.tick) ∧
      (s.st = .requesting → step s = if s.edgeIn.ack then exec .reqSwap s.tick else exec .reqHold s.tick) ∧
      (s.st = .streaming → step s = exec (.stream s.edgeIn.ack) s.tick) ∧
      (s.st = .draining → step s = exec (.drain s.edgeIn.ack) s.tick) ∧
      (∀ n, s.st = .unused n →
        step s = .next { s.tick with fault := some (.invariantFailure .unrecognisedState) }))

/-- The machine never stops: every state has a next state, whatever its environment gives, and `k` edges show `k`
steps, each with `req` after it (42_framestreamer section 1; 70_reset_and_hazards section 5; the model's own stop, log
8, is out of a step's reach). -/
def Obligations.StepAlwaysAnswersNext : Prop :=
  (∀ s : State, ∃ t, step s = .next t) ∧
  ∀ (k : Nat) (s : State), (observation k s).steps.length = k ∧ (observation k s).reqs.length = k

/-- 42_framestreamer R162: an unrecognised state aborts an active step, and an inactive cycle raises nothing even
there (the second half is 60_exceptions section 4; log 9). -/
def Obligations.UnrecognisedStateAborts : Prop :=
  ∀ (s : State) (n : Nat), s.st = .unused n → s.edgeIn.rst = false → s.fault = none →
    (s.edgeIn.avail = true →
      step s = .next { s.tick with fault := some (.invariantFailure .unrecognisedState) }) ∧
    (s.edgeIn.avail = false → step s = .next s.tick)

/-- 42_framestreamer R163: outside an active step in REQUESTING (in another state, or at an edge with `avail = 0`, with
`rst = 1` or with a recorded fault) the value of `ack` has no effect, so an acknowledgement given only there is lost. -/
def Obligations.AckReadOnlyInRequesting : Prop :=
  ∀ (s : State) (e : Edge) (rest : List Edge), (s.st ≠ .requesting ∨ s.activeAt e = false) →
    step (s.withEdges (e :: rest)) = step (s.withEdges ({ e with ack := !e.ack } :: rest))

/-! ### Reset, FAULTED, IDLE -/

/-- 10_state R35: every element of the state tuple after reset; the configuration is unchanged by it; and the first
active step after reset runs the INIT arm. -/
def Obligations.ResetStateValues : Prop :=
  State.reset.st = .init ∧ State.reset.st.code = 0b00#2 ∧ State.reset.cur = none ∧ State.reset.pend = none ∧
  State.reset.cursor = 0 ∧ State.reset.req = false ∧
  State.reset.out =
    { usr := State.reset.cfg.tag, err := false, val := false, sof := false, eof := false, mod := 0, dat := 0 } ∧
  State.reset.bits = 0 ∧ State.reset.fault = none ∧
  (∀ (flt : Bool) (sel : BitVec 4) (s t : State), exec (.reset flt sel) s = .next t → t.cfg = s.cfg) ∧
  ∀ (e : Edge) (es : List Edge), e.rst = false → e.avail = true →
    (State.reset.withEdges (e :: es)).selected = .op (.init e.ack)

/-- At an edge with `rst = 1` every element takes its reset value, whatever `avail`, `ack` or `fault` are; no call is
made; the configuration stays; and nothing else clears a fault (70_reset_and_hazards section 1, 10_state section 6).
That the model's own tap is cleared too is the model's choice (log 4). -/
def Obligations.ResetSetsEveryElement : Prop :=
  (∀ (s : State) (flt : Bool) (sel : BitVec 4),
    exec (.reset flt sel) s = .next { s with
      st := .init, cur := none, pend := none, cursor := 0, req := false,
      out := { usr := s.cfg.tag, err := false, val := false, sof := false, eof := false, mod := 0, dat := 0 },
      bits := 0, fault := none, tap := .nothing }) ∧
  (∀ s : State, s.edgeIn.rst = true → ∀ flt sel, step s = exec (.reset flt sel) s.tick) ∧
  (∀ s t : State, s.fault ≠ none → step s = .next t → t.fault = none → s.edgeIn.rst = true)

/-- 60_exceptions R205: a recorded fault leaves the state unchanged at every edge with `rst = 0`; no input is
read, no call is made, the outputs keep their values and `fault` shows the code. -/
def Obligations.FaultedHoldsEverything : Prop :=
  (∀ (s : State) (sel : BitVec 4), exec (.faulted sel) s = .next s) ∧
  (∀ s : State, s.fault ≠ none → s.edgeIn.rst = false → step s = .next s.tick) ∧
  (∀ s t : State, s.fault ≠ none → s.edgeIn.rst = false → step s = .next t →
    t.outputs = s.outputs ∧ t.calls = s.calls ∧ t.answers = s.answers ∧ t.outputs.fault ≠ 0b00#2)

/-- 42_framestreamer R151: an inactive cycle writes nothing, in any state, whatever `ack` is; the held output is no
new beat. -/
def Obligations.IdleHoldsEverything : Prop :=
  (∀ (s : State) (ack : Bool) (st : BitVec 2), exec (.idle ack st) s = .next s) ∧
  (∀ s : State, s.edgeIn.rst = false → s.fault = none → s.edgeIn.avail = false →
    step s = .next s.tick ∧ emitted s = none)

/-! ### BeatCodec -/

/-- 40_beatcodec R101 with the lane layout of 30_encoding section 3: PACK puts byte `off + j` in lane `j`, lane 0
most significant, and 0 past the frame's end; it is total for every offset. The result is read on the tap, the model's
own observation point (log 4). -/
def Obligations.PackCopiesBigEndianLanes : Prop :=
  ∀ (s : State) (c : WidthClass) (bytes : List Byte) (off : Nat), ∃ v : Dat,
    exec (.pack c bytes off) s = .next { s with tap := .dat c v } ∧
    v.toNat < 2 ^ (8 * c.bytes) ∧
    (∀ j, j < c.bytes →
      v.extractLsb' (8 * c.bytes - 8 - 8 * j) 8 =
        if h : off + j < bytes.length then bytes[off + j] else 0x00#8) ∧
    (bytes.length ≤ off → v = 0)

/-- 40_beatcodec R102, R103, R104: ENC_VC by class, each row with its own formula. The result is read on the tap, the
model's own observation point (log 4). -/
def Obligations.EncodeValidCountByClass : Prop :=
  ∀ s : State,
    (∀ k, exec (.encVcW1 k) s = .next { s with tap := .modField .w1 0 }) ∧
    (∀ k, exec (.encVcW2 k) s = .next { s with tap := .modField .w2 (if k.val = 1 then 1 else 0) }) ∧
    (∀ k, exec (.encVcW4 k) s =
      .next { s with tap := .modField .w4 (if k.val = 4 then 0 else BitVec.ofNat 6 k.val) }) ∧
    (∀ k, exec (.encVcW8 k) s =
      .next { s with tap := .modField .w8 (if k.val = 8 then 0 else BitVec.ofNat 6 k.val) }) ∧
    (∀ k, exec (.encVcW16 k) s =
      .next { s with tap := .modField .w16 (if k.val = 16 then 0 else BitVec.ofNat 6 k.val) }) ∧
    (∀ k, exec (.encVcW32 k) s =
      .next { s with tap := .modField .w32 (if k.val = 32 then 0 else BitVec.ofNat 6 k.val) }) ∧
    (∀ k, exec (.encVcW64 k) s =
      .next { s with tap := .modField .w64 (if k.val = 64 then 0 else BitVec.ofNat 6 k.val) })

/-- 40_beatcodec R106, R107, R108: DEC_VC by class, each row with its own formula. The result is read on the tap, the
model's own observation point (log 4). -/
def Obligations.DecodeValidCountByClass : Prop :=
  ∀ s : State,
    exec .decVcW1 s = .next { s with tap := .count 1 } ∧
    (∀ m, exec (.decVcW2 m) s = .next { s with tap := .count (if m = 1#1 then 1 else 2) }) ∧
    (∀ m, exec (.decVcW4 m) s = .next { s with tap := .count (if m = 0#2 then 4 else m.toNat) }) ∧
    (∀ m, exec (.decVcW8 m) s = .next { s with tap := .count (if m = 0#3 then 8 else m.toNat) }) ∧
    (∀ m, exec (.decVcW16 m) s = .next { s with tap := .count (if m = 0#4 then 16 else m.toNat) }) ∧
    (∀ m, exec (.decVcW32 m) s = .next { s with tap := .count (if m = 0#5 then 32 else m.toNat) }) ∧
    (∀ m, exec (.decVcW64 m) s = .next { s with tap := .count (if m = 0#6 then 64 else m.toNat) })

/-- The single formula `k mod W` agrees with the class rules on `0..W`, decodes back on `1..W`, and fails at 0,
where it reads as `W` bytes (40_beatcodec section 5 and the end of section 3; the spec marks both "derived"). -/
def Obligations.ValidCountRoundTrip : Prop :=
  ∀ (c : WidthClass) (k : Nat), k ≤ c.bytes →
    (encVc c k).toNat = k % c.bytes ∧
    (1 ≤ k → decVc c (encVc c k) = k) ∧
    (k = 0 → decVc c (encVc c k) = c.bytes)

/-- ENC_VC is a bijection from `1..W` onto the `c`-bit values, with DEC_VC its inverse (40_beatcodec section 5, a
rule the spec marks "derived"). -/
def Obligations.ValidCountCodeIsBijection : Prop :=
  ∀ (c : WidthClass) (m : ModField), m.toNat < 2 ^ c.modW →
    1 ≤ decVc c m ∧ decVc c m ≤ c.bytes ∧ encVc c (decVc c m) = m ∧
    ∀ k, 1 ≤ k → k ≤ c.bytes → encVc c k = m → k = decVc c m

/-- Reassembly: the first `DEC_VC(mod)` lanes of a frame's beats, in order, are its bytes, for `N ≥ 1` (40_beatcodec
section 5, a rule the spec marks "derived"). That the block emits these beats is `FrameBeatsInOrder`. -/
def Obligations.ReassemblyGivesFrameBack : Prop :=
  ∀ (cfg : Config) (bytes : List Byte), bytes ≠ [] →
    (frameBeats cfg bytes).flatMap (fun p => validLanes cfg.c p.1) = bytes

/-! ### FrameBuffer -/

/-- 41_framebuffer R130: THRESH and its clamps. The frame is read on the tap, the model's own observation point
(log 4). -/
def Obligations.ThreshBuildsFrame : Prop :=
  ∀ (s : State) (bytes : List Byte), ∃ f : Frame,
    exec (.thresh bytes) s = .next { s with tap := .frame f } ∧
    f.bytes = bytes ∧ f.len = bytes.length ∧
    f.lastOffset = max s.cfg.c.bytes bytes.length - s.cfg.c.bytes ∧
    f.prefetchOffset = max (2 * s.cfg.c.bytes) bytes.length - 2 * s.cfg.c.bytes ∧
    (bytes.length ≤ s.cfg.c.bytes → f.lastOffset = 0) ∧
    (bytes.length ≤ 2 * s.cfg.c.bytes → f.prefetchOffset = 0)

/-- The thresholds of every frame THRESH makes are ordered, and `min(W, N - W)` apart (41_framebuffer section 1, a
rule the spec marks "derived"). The frame is read on the tap, the model's own observation point (log 4). -/
def Obligations.ThresholdsOrdered : Prop :=
  ∀ (s : State) (bytes : List Byte), ∃ f : Frame,
    exec (.thresh bytes) s = .next { s with tap := .frame f } ∧
    f.prefetchOffset ≤ f.lastOffset ∧ f.lastOffset ≤ bytes.length ∧
    f.lastOffset - f.prefetchOffset = min s.cfg.c.bytes (bytes.length - s.cfg.c.bytes)

/-- 41_framebuffer R133: FETCH, its three exceptions in the order of its checks, the constants a call carries, and no
call where the slot is full, which a state that meets the reachable-state table never has when it fetches. -/
def Obligations.FetchFillsPending : Prop :=
  (∀ (s : State) (bs : List Byte), s.pend = none → s.nextAnswer = .frame bs → fitsSlot s.cfg bs.length = true →
    exec .fetch s = .next { s with
      pend := some { bytes := bs, lastOffset := bs.length - s.cfg.c.bytes,
                     prefetchOffset := bs.length - 2 * s.cfg.c.bytes },
      answers := s.answers.tail, calls := s.calls + 1 }) ∧
  (∀ s : State, s.pend ≠ none →
    exec .fetch s = .next { s with fault := some (.invariantFailure .pendingOccupied) }) ∧
  (∀ s : State, s.pend = none → s.nextAnswer = .sourceError →
    exec .fetch s = .next { s with
      fault := some .sourceError, answers := s.answers.tail, calls := s.calls + 1 }) ∧
  (∀ (s : State) (bs : List Byte), s.pend = none → s.nextAnswer = .frame bs → fitsSlot s.cfg bs.length = false →
    exec .fetch s = .next { s with
      fault := some (.frameTooLong bs.length), answers := s.answers.tail, calls := s.calls + 1 }) ∧
  (∀ (cfg : Config) (n : Nat), fitsSlot cfg n = false ↔ ∃ m, cfg.nmax = some m ∧ m < n) ∧
  (∀ s t : State, exec .fetch s = .next t →
    (s.pend = none → srcCall s t = some (s.cfg.handler, s.cfg.payload)) ∧ (s.pend ≠ none → srcCall s t = none)) ∧
  (∀ s : State, s.Inv → (s.st = .init ∨ s.st = .streaming) → s.pend = none)

/-- 41_framebuffer R135: SWAP, and that a state that meets the reachable-state table has a frame to swap in. -/
def Obligations.SwapPromotesPending : Prop :=
  (∀ (s : State) (f : Frame), s.pend = some f → exec .swap s = .next { s with cur := some f, pend := none }) ∧
  (∀ s : State, s.pend = none → exec .swap s = .next { s with fault := some (.invariantFailure .pendingEmpty) }) ∧
  (∀ s : State, s.Inv → s.st = .requesting → s.pend ≠ none)

/-! ### FrameStreamer: shared sub-operations -/

/-- 42_framestreamer R152: BEAT from the current frame at the cursor; `val` and `eof` stay. -/
def Obligations.BeatFormsFromCursor : Prop :=
  ∀ (s : State) (f : Frame) (sofv : Bool), s.cur = some f →
    exec (.beat sofv) s = .next { s with
      out := { usr := s.cfg.tag, err := false, val := s.out.val, sof := sofv, eof := s.out.eof,
               mod := encVc s.cfg.c (min s.cfg.c.bytes (f.len - s.cursor)),
               dat := packWord s.cfg.c f.bytes s.cursor } }

/-- 42_framestreamer R153: IDLE_BEAT. -/
def Obligations.IdleBeatDrivesNoBeat : Prop :=
  ∀ s : State,
    exec .idleBeat s = .next { s with
      out := { usr := s.cfg.tag, err := false, val := false, sof := false, eof := false, mod := 0, dat := 0 } }

/-- 42_framestreamer R154: REQ_DECIDE fetches at or past the threshold and raises `req`, else clears it. -/
def Obligations.RequestDecidedAtThreshold : Prop :=
  (∀ (s : State) (f : Frame), s.cur = some f → s.cursor < f.prefetchOffset →
    exec .reqDecide s = .next { s with req := false }) ∧
  (∀ (s : State) (f : Frame) (bs : List Byte), s.cur = some f → f.prefetchOffset ≤ s.cursor → s.pend = none →
    s.nextAnswer = .frame bs → fitsSlot s.cfg bs.length = true →
    exec .reqDecide s = .next { s with
      req := true,
      pend := some { bytes := bs, lastOffset := bs.length - s.cfg.c.bytes,
                     prefetchOffset := bs.length - 2 * s.cfg.c.bytes },
      answers := s.answers.tail, calls := s.calls + 1 }) ∧
  (∀ (s : State) (f : Frame), s.cur = some f → f.prefetchOffset ≤ s.cursor → s.pend ≠ none →
    exec .reqDecide s = .next { s with fault := some (.invariantFailure .pendingOccupied) }) ∧
  (∀ (s : State) (f : Frame), s.cur = some f → f.prefetchOffset ≤ s.cursor → s.pend = none →
    s.nextAnswer = .sourceError →
    exec .reqDecide s = .next { s with
      fault := some .sourceError, answers := s.answers.tail, calls := s.calls + 1 }) ∧
  (∀ (s : State) (f : Frame) (bs : List Byte), s.cur = some f → f.prefetchOffset ≤ s.cursor → s.pend = none →
    s.nextAnswer = .frame bs → fitsSlot s.cfg bs.length = false →
    exec .reqDecide s = .next { s with
      fault := some (.frameTooLong bs.length), answers := s.answers.tail, calls := s.calls + 1 })

/-- 42_framestreamer R155: NEXT_STATE; the `eof` test comes first. -/
def Obligations.NextStateRule : Prop :=
  ∀ (s : State) (f : Frame), s.cur = some f →
    (f.lastOffset ≤ s.cursor →
      exec .nextState s = .next { s with out := { s.out with eof := true, val := true }, st := .requesting }) ∧
    (s.cursor < f.lastOffset → f.prefetchOffset ≤ s.cursor →
      exec .nextState s = .next { s with out := { s.out with eof := false, val := true }, st := .draining }) ∧
    (s.cursor < f.lastOffset → s.cursor < f.prefetchOffset →
      exec .nextState s = .next { s with out := { s.out with eof := false, val := true }, st := .streaming })

/-- The model's own stop (log 8): a sub-operation invoked by itself that reads the empty `cur` slot. -/
def Obligations.EmptySlotReadStops : Prop :=
  ∀ s : State, s.cur = none →
    (∀ b, exec (.beat b) s = .fault .emptySlotRead) ∧
    exec .reqDecide s = .fault .emptySlotRead ∧ exec .nextState s = .fault .emptySlotRead

/-! ### FrameStreamer: the arms -/

/-- 42_framestreamer R156: INIT, its exceptions, and that no transition enters INIT. -/
def Obligations.InitMakesFirstFetch : Prop :=
  (∀ (s : State) (ack : Bool) (bs : List Byte), s.pend = none → s.nextAnswer = .frame bs →
    fitsSlot s.cfg bs.length = true →
    exec (.init ack) s = .next { s with
      st := .requesting,
      pend := some { bytes := bs, lastOffset := bs.length - s.cfg.c.bytes,
                     prefetchOffset := bs.length - 2 * s.cfg.c.bytes },
      req := true,
      out := { usr := s.cfg.tag, err := false, val := false, sof := false, eof := false, mod := 0, dat := 0 },
      answers := s.answers.tail, calls := s.calls + 1 }) ∧
  (∀ (s : State) (ack : Bool), s.pend ≠ none →
    exec (.init ack) s = .next { s with fault := some (.invariantFailure .pendingOccupied) }) ∧
  (∀ (s : State) (ack : Bool), s.pend = none → s.nextAnswer = .sourceError →
    exec (.init ack) s = .next { s with
      fault := some .sourceError, answers := s.answers.tail, calls := s.calls + 1 }) ∧
  (∀ (s : State) (ack : Bool) (bs : List Byte), s.pend = none → s.nextAnswer = .frame bs →
    fitsSlot s.cfg bs.length = false →
    exec (.init ack) s = .next { s with
      fault := some (.frameTooLong bs.length), answers := s.answers.tail, calls := s.calls + 1 }) ∧
  (∀ s : State, s.Inv → s.st = .init → s.pend = none) ∧
  (∀ s t : State, step s = .next t → t.st = .init → s.st = .init ∨ s.edgeIn.rst = true)

/-- 42_framestreamer R157: REQ_HOLD drives the idle beat and changes nothing else; `req` is 1 in every state that
meets the reachable-state table, and a hold after a frame has become current is a bubble. -/
def Obligations.HoldKeepsRequest : Prop :=
  (∀ s : State,
    exec .reqHold s = .next { s with
      out := { usr := s.cfg.tag, err := false, val := false, sof := false, eof := false, mod := 0, dat := 0 } }) ∧
  (∀ s : State, s.Inv → s.st = .requesting → s.req = true) ∧
  (∀ s : State, s.selected = .op .reqHold → s.cur ≠ none → isBubble s = true)

/-- 42_framestreamer R158: REQ_SWAP, with the request decision at cursor 0, its exceptions, and that a state that
meets the reachable-state table has a pending frame. -/
def Obligations.SwapEmitsFirstBeat : Prop :=
  (∀ (s : State) (f : Frame), s.pend = some f → 0 < f.prefetchOffset →
    exec .reqSwap s = .next { s with
      cur := some f, pend := none, cursor := 0, bits := 8 * f.len, req := false,
      out := { usr := s.cfg.tag, err := false, val := true, sof := true, eof := decide (f.lastOffset ≤ 0),
               mod := encVc s.cfg.c (min s.cfg.c.bytes f.len), dat := packWord s.cfg.c f.bytes 0 },
      st := if f.lastOffset ≤ 0 then .requesting else .streaming }) ∧
  (∀ (s : State) (f : Frame) (bs : List Byte), s.pend = some f → f.prefetchOffset = 0 →
    s.nextAnswer = .frame bs → fitsSlot s.cfg bs.length = true →
    exec .reqSwap s = .next { s with
      cur := some f, cursor := 0, bits := 8 * f.len, req := true,
      pend := some { bytes := bs, lastOffset := bs.length - s.cfg.c.bytes,
                     prefetchOffset := bs.length - 2 * s.cfg.c.bytes },
      out := { usr := s.cfg.tag, err := false, val := true, sof := true, eof := decide (f.lastOffset ≤ 0),
               mod := encVc s.cfg.c (min s.cfg.c.bytes f.len), dat := packWord s.cfg.c f.bytes 0 },
      st := if f.lastOffset ≤ 0 then .requesting else .draining,
      answers := s.answers.tail, calls := s.calls + 1 }) ∧
  (∀ s : State, s.pend = none →
    exec .reqSwap s = .next { s with fault := some (.invariantFailure .pendingEmpty) }) ∧
  (∀ (s : State) (f : Frame), s.pend = some f → f.prefetchOffset = 0 → s.nextAnswer = .sourceError →
    exec .reqSwap s = .next { s with
      fault := some .sourceError, answers := s.answers.tail, calls := s.calls + 1 }) ∧
  (∀ (s : State) (f : Frame) (bs : List Byte), s.pend = some f → f.prefetchOffset = 0 →
    s.nextAnswer = .frame bs → fitsSlot s.cfg bs.length = false →
    exec .reqSwap s = .next { s with
      fault := some (.frameTooLong bs.length), answers := s.answers.tail, calls := s.calls + 1 }) ∧
  (∀ s : State, s.Inv → s.st = .requesting → s.pend ≠ none) ∧
  (∀ s t : State, step s = .next t → t.bits ≠ s.bits → s.selected = .op .reqSwap ∨ s.edgeIn.rst = true)

/-- 42_framestreamer R159: STREAM, with the request decision at the new cursor, its exceptions, and that from a
state that meets the reachable-state table its checks pass and the cursor's saturation has no effect. -/
def Obligations.StreamAdvancesAndDecides : Prop :=
  (∀ (s : State) (ack : Bool) (f : Frame) (n : Nat), s.cur = some f → s.cursor < f.lastOffset →
    n = min (s.cursor + s.cfg.c.bytes) f.len → n < f.prefetchOffset →
    exec (.stream ack) s = .next { s with
      cursor := n, req := false,
      out := { usr := s.cfg.tag, err := false, val := true, sof := false, eof := decide (f.lastOffset ≤ n),
               mod := encVc s.cfg.c (min s.cfg.c.bytes (f.len - n)), dat := packWord s.cfg.c f.bytes n },
      st := if f.lastOffset ≤ n then .requesting else .streaming }) ∧
  (∀ (s : State) (ack : Bool) (f : Frame) (n : Nat) (bs : List Byte), s.cur = some f → s.cursor < f.lastOffset →
    n = min (s.cursor + s.cfg.c.bytes) f.len → f.prefetchOffset ≤ n → s.pend = none →
    s.nextAnswer = .frame bs → fitsSlot s.cfg bs.length = true →
    exec (.stream ack) s = .next { s with
      cursor := n, req := true,
      pend := some { bytes := bs, lastOffset := bs.length - s.cfg.c.bytes,
                     prefetchOffset := bs.length - 2 * s.cfg.c.bytes },
      out := { usr := s.cfg.tag, err := false, val := true, sof := false, eof := decide (f.lastOffset ≤ n),
               mod := encVc s.cfg.c (min s.cfg.c.bytes (f.len - n)), dat := packWord s.cfg.c f.bytes n },
      st := if f.lastOffset ≤ n then .requesting else .draining,
      answers := s.answers.tail, calls := s.calls + 1 }) ∧
  (∀ (s : State) (ack : Bool), s.cur = none →
    exec (.stream ack) s = .next { s with fault := some (.invariantFailure .noCurrent) }) ∧
  (∀ (s : State) (ack : Bool) (f : Frame), s.cur = some f → f.lastOffset ≤ s.cursor →
    exec (.stream ack) s = .next { s with fault := some (.invariantFailure .cursorOutOfRange) }) ∧
  (∀ (s : State) (ack : Bool) (f : Frame), s.cur = some f → s.cursor < f.lastOffset →
    f.prefetchOffset ≤ min (s.cursor + s.cfg.c.bytes) f.len →
    (s.pend ≠ none → exec (.stream ack) s = .next { s with fault := some (.invariantFailure .pendingOccupied) }) ∧
    (s.pend = none → s.nextAnswer = .sourceError →
      exec (.stream ack) s = .next { s with
        fault := some .sourceError, answers := s.answers.tail, calls := s.calls + 1 }) ∧
    (∀ bs, s.pend = none → s.nextAnswer = .frame bs → fitsSlot s.cfg bs.length = false →
      exec (.stream ack) s = .next { s with
        fault := some (.frameTooLong bs.length), answers := s.answers.tail, calls := s.calls + 1 })) ∧
  (∀ s : State, s.Inv → s.st = .streaming → ∃ f, s.cur = some f ∧ s.cursor < f.lastOffset ∧
    min (s.cursor + s.cfg.c.bytes) f.len = s.cursor + s.cfg.c.bytes)

/-- DRAIN makes no request decision and never fetches (42_framestreamer section 3); from a state that meets the
reachable-state table its checks pass, the saturation has no effect, and its beat is the frame's last (42_framestreamer
sections 3 and 5: inferences the spec marks "derived"). -/
def Obligations.DrainAdvancesWithoutDecision : Prop :=
  (∀ (s : State) (ack : Bool) (f : Frame) (n : Nat), s.cur = some f → s.cursor < f.lastOffset →
    n = min (s.cursor + s.cfg.c.bytes) f.len →
    exec (.drain ack) s = .next { s with
      cursor := n,
      out := { usr := s.cfg.tag, err := false, val := true, sof := false, eof := decide (f.lastOffset ≤ n),
               mod := encVc s.cfg.c (min s.cfg.c.bytes (f.len - n)), dat := packWord s.cfg.c f.bytes n },
      st := if f.lastOffset ≤ n then .requesting
            else if f.prefetchOffset ≤ n then .draining else .streaming }) ∧
  (∀ (s : State) (ack : Bool), s.cur = none →
    exec (.drain ack) s = .next { s with fault := some (.invariantFailure .noCurrent) }) ∧
  (∀ (s : State) (ack : Bool) (f : Frame), s.cur = some f → f.lastOffset ≤ s.cursor →
    exec (.drain ack) s = .next { s with fault := some (.invariantFailure .cursorOutOfRange) }) ∧
  (∀ s : State, s.Inv → s.st = .draining → s.req = true ∧ ∃ f, s.cur = some f ∧ s.cursor < f.lastOffset ∧
    f.lastOffset ≤ s.cursor + s.cfg.c.bytes ∧
    min (s.cursor + s.cfg.c.bytes) f.len = s.cursor + s.cfg.c.bytes ∧
    ∀ ack t, exec (.drain ack) s = .next t → t.out.eof = true ∧ t.st = .requesting)

/-! ### Faults -/

/-- 60_exceptions R204: a faulting step leaves the state at its start with the fault recorded; an answer it had asked
for is used up (the source's two faults come after the call, an invariant check before it); no beat is emitted. -/
def Obligations.FaultEntryIsPrecise : Prop :=
  ∀ (s t : State) (f : BlockFault), s.fault = none → step s = .next t → t.fault = some f →
    t = { s.tick with fault := some f, answers := t.answers, calls := t.calls } ∧
    (∀ r, f = .invariantFailure r → t.answers = s.answers ∧ t.calls = s.calls) ∧
    ((∀ r, f ≠ .invariantFailure r) → t.answers = s.answers.tail ∧ t.calls = s.calls + 1) ∧
    emitted s = none

/-- 60_exceptions R208: `rst` overrides everything, then a recorded fault stays, then an inactive cycle raises nothing;
an operation raises the first of its checks that fails, in the listed order, and nothing where all pass; an
unrecognised state raises its own. -/
def Obligations.FirstFailingCheckIsRaised : Prop :=
  (∀ s t : State, step s = .next t →
    (s.edgeIn.rst = true → t.fault = none) ∧
    (s.edgeIn.rst = false → s.fault ≠ none → t.fault = s.fault) ∧
    (s.edgeIn.rst = false → s.fault = none → s.edgeIn.avail = false → t.fault = none) ∧
    (∀ n, s.edgeIn.rst = false → s.fault = none → s.edgeIn.avail = true → s.st = .unused n →
      t.fault = some (.invariantFailure .unrecognisedState))) ∧
  ∀ (i : Instr) (s t : State), exec i s = .next t → (∀ flt sel, i ≠ .reset flt sel) →
    match firstFault i s with
    | some f => t.fault = some f
    | none => t.fault = s.fault

/-- 60_exceptions R201: FETCH raises SourceError when the source answers with it, and a step that raises it was so
answered and is one that fetches: INIT, REQ_SWAP or STREAM, never DRAIN, REQ_HOLD or IDLE. -/
def Obligations.SourceErrorOnlyFromFetch : Prop :=
  (∀ s : State, s.pend = none → s.nextAnswer = .sourceError →
    ∃ t, exec .fetch s = .next t ∧ t.fault = some .sourceError) ∧
  ∀ s t : State, s.fault = none → step s = .next t → t.fault = some .sourceError →
    s.nextAnswer = .sourceError ∧ t.calls = s.calls + 1 ∧
    ∃ i, s.selected = .op i ∧ (i = .init s.edgeIn.ack ∨ i = .reqSwap ∨ i = .stream s.edgeIn.ack)

/-- 60_exceptions R203: FrameTooLong(N) is raised exactly for an answered frame above NMAX, and never with NMAX
unbounded. -/
def Obligations.FrameTooLongOnlyAboveCapacity : Prop :=
  (∀ (s t : State) (n : Nat), s.fault = none → step s = .next t → t.fault = some (.frameTooLong n) →
    ∃ m bs, s.cfg.nmax = some m ∧ m < n ∧ s.nextAnswer = .frame bs ∧ bs.length = n) ∧
  (∀ (s : State) (bs : List Byte) (m : Nat), s.pend = none → s.nextAnswer = .frame bs → s.cfg.nmax = some m →
    m < bs.length → ∃ t, exec .fetch s = .next t ∧ t.fault = some (.frameTooLong bs.length))

/-- No step from a state that meets the reachable-state table raises an InvariantFailure (60_exceptions section 1 and
42_framestreamer section 5; the spec's "None is reachable from reset"). -/
def Obligations.NoInvariantFailureFromInvariant : Prop :=
  ∀ (s t : State) (r : Reason), s.Inv → s.fault = none → step s = .next t → t.fault ≠ some (.invariantFailure r)

/-! ### Writers and frames -/

/-- 10_state R29: no operation and no step writes the configuration. -/
def Obligations.ConfigurationNeverWritten : Prop :=
  (∀ (i : Instr) (s t : State), exec i s = .next t → t.cfg = s.cfg) ∧
  (∀ s t : State, step s = .next t → t.cfg = s.cfg)

/-- 10_state R25: `req` is set by INIT, set or cleared by REQ_DECIDE (within REQ_SWAP and STREAM), cleared by reset,
unchanged by every other step, and drives the output at all times. -/
def Obligations.RequestLineWriters : Prop :=
  (∀ s t : State, step s = .next t → t.req ≠ s.req →
    s.edgeIn.rst = true ∨ s.selected = .op (.init s.edgeIn.ack) ∨ s.selected = .op .reqSwap ∨
    s.selected = .op (.stream s.edgeIn.ack)) ∧
  (∀ (s t : State) (ack : Bool), exec (.init ack) s = .next t → t.fault = none → t.req = true) ∧
  (∀ (s t : State) (f : Frame), s.cur = some f → exec .reqDecide s = .next t → t.fault = none →
    t.req = decide (f.prefetchOffset ≤ s.cursor)) ∧
  (∀ (s t : State) (flt : Bool) (sel : BitVec 4), exec (.reset flt sel) s = .next t → t.req = false) ∧
  (∀ s : State, s.outputs.req = s.req)

/-- 10_state R22: `cur` is written only by SWAP (within REQ_SWAP) and by reset; it is empty from reset until the
first swap; no rule changes the bytes or thresholds of the frame it holds. -/
def Obligations.CurrentSlotWriters : Prop :=
  (∀ (i : Instr) (s t : State), exec i s = .next t → t.cur ≠ s.cur →
    i = .swap ∨ i = .reqSwap ∨ ∃ flt sel, i = .reset flt sel) ∧
  (∀ (s t : State) (f : Frame), step s = .next t → t.cur = some f → s.cur ≠ some f →
    s.selected = .op .reqSwap ∧ s.pend = some f) ∧
  State.reset.cur = none

/-- 10_state R24: `cursor` is set to 0 by REQ_SWAP and by reset, advanced by `W`, saturating at the frame length, by
STREAM and DRAIN, and left unchanged by every other operation. -/
def Obligations.CursorWriters : Prop :=
  (∀ (i : Instr) (s t : State), exec i s = .next t → t.cursor ≠ s.cursor →
    ((i = .reqSwap ∨ ∃ flt sel, i = .reset flt sel) ∧ t.cursor = 0) ∨
    ((∃ ack, i = .stream ack ∨ i = .drain ack) ∧
      ∃ f, s.cur = some f ∧ t.cursor = min (s.cursor + s.cfg.c.bytes) f.len)) ∧
  (∀ (s t : State), exec .reqSwap s = .next t → t.fault = none → t.cursor = 0) ∧
  (∀ (s t : State) (ack : Bool), (exec (.stream ack) s = .next t ∨ exec (.drain ack) s = .next t) → t.fault = none →
    ∃ f, s.cur = some f ∧ t.cursor = min (s.cursor + s.cfg.c.bytes) f.len) ∧
  (∀ (s t : State) (flt : Bool) (sel : BitVec 4), exec (.reset flt sel) s = .next t → t.cursor = 0)

/-- The frame of every operation: a field that the operation is not named to write is unchanged, and so is every
byte read of the current frame where `cur` is not written (10_state sections 1 and 3; 20_memory section 2; 41
sections 2 and 3). The configuration and the harness's inputs are written by none. -/
def Obligations.OperationFrames : Prop :=
  ∀ (i : Instr) (s t : State), exec i s = .next t →
    (mayWrite .st i = false → t.st = s.st) ∧
    (mayWrite .cur i = false → t.cur = s.cur ∧
      ∀ f, s.cur = some f → ∃ g, t.cur = some g ∧ ∀ a, byteAt g.bytes a = byteAt f.bytes a) ∧
    (mayWrite .pend i = false → t.pend = s.pend) ∧
    (mayWrite .cursor i = false → t.cursor = s.cursor) ∧
    (mayWrite .req i = false → t.req = s.req) ∧
    (mayWrite .out i = false → t.out = s.out) ∧
    (mayWrite .bits i = false → t.bits = s.bits) ∧
    (mayWrite .fault i = false → t.fault = s.fault) ∧
    (mayWrite .source i = false → t.answers = s.answers ∧ t.calls = s.calls) ∧
    (mayWrite .tap i = false → t.tap = s.tap) ∧
    t.cfg = s.cfg ∧ t.stimulus = s.stimulus ∧ t.edges = s.edges

/-- Frames move whole and never change: after a step `cur` holds what it held, or what `pend` held, or nothing; `pend`
holds what it held, or the frame THRESH makes of this step's answer, or nothing (20_memory section 2; 41_framebuffer
sections 1 and 4). The source is called at most once a step (30_encoding section 10), and the call carries HANDLER and
PAYLOAD (41_framebuffer section 2). That a call uses up the head of the listed answers is the model's form (log 2). -/
def Obligations.FramesMoveWhole : Prop :=
  ∀ s t : State, step s = .next t →
    (t.cur = s.cur ∨ t.cur = s.pend ∨ t.cur = none) ∧
    (t.pend = s.pend ∨ t.pend = none ∨
      ∃ bs, s.nextAnswer = .frame bs ∧ t.calls = s.calls + 1 ∧
        t.pend = some { bytes := bs, lastOffset := bs.length - s.cfg.c.bytes,
                        prefetchOffset := bs.length - 2 * s.cfg.c.bytes }) ∧
    ((t.calls = s.calls ∧ t.answers = s.answers) ∨ (t.calls = s.calls + 1 ∧ t.answers = s.answers.tail)) ∧
    (srcCall s t = none ∨ srcCall s t = some (s.cfg.handler, s.cfg.payload))

/-! ### Properties of frames and runs -/

/-- A frame with `N ≤ W` gives a first beat with `sof` and `eof`, and the next state is REQUESTING (42_framestreamer
section 5, a rule the spec marks "derived"). -/
def Obligations.OneBeatFrameIsFirstAndLast : Prop :=
  ∀ (s t : State) (f : Frame), Memory.wf s = true → s.pend = some f → f.len ≤ s.cfg.c.bytes →
    s.fault = none → exec .reqSwap s = .next t → t.fault = none →
    t.out.val = true ∧ t.out.sof = true ∧ t.out.eof = true ∧ t.st = .requesting

/-- A frame with `N ≤ 2W` has the next one fetched on its first beat, with `req` 1 after it (42_framestreamer section
5, a rule the spec marks "derived"). -/
def Obligations.ShortFramePrefetchesAtOnce : Prop :=
  ∀ (s t : State) (f : Frame), Memory.wf s = true → s.pend = some f → f.len ≤ 2 * s.cfg.c.bytes →
    s.fault = none → exec .reqSwap s = .next t → t.fault = none →
    t.req = true ∧ t.calls = s.calls + 1 ∧
    ∃ bs, s.nextAnswer = .frame bs ∧ ∃ g, t.pend = some g ∧ g.bytes = bs

/-- The empty frame gives one zero beat with `sof` and `eof`, and the next frame is fetched on it (42_framestreamer
section 5, a rule the spec marks "derived", and its decision D11: log 17). -/
def Obligations.EmptyFrameGivesOneZeroBeat : Prop :=
  ∀ (s : State) (f : Frame) (bs : List Byte), Memory.wf s = true → s.pend = some f → f.bytes = [] →
    s.nextAnswer = .frame bs → fitsSlot s.cfg bs.length = true →
    ∃ t, exec .reqSwap s = .next t ∧ t.fault = s.fault ∧
      t.out = { usr := s.cfg.tag, err := false, val := true, sof := true, eof := true, mod := 0, dat := 0 } ∧
      t.req = true ∧ t.st = .requesting ∧ t.calls = s.calls + 1

/-- The beats a pending frame gives, whatever the harness does short of a reset: in order, each with its flags, its
`mod`, its bytes and `req` after it, and nothing else in between (42_framestreamer section 5, rules the spec marks
"derived": the beat count, one `sof` and one `eof`, the order of beats, request timing, full interior beats). -/
def Obligations.FrameBeatsInOrder : Prop :=
  ∀ (k : Nat) (s : State) (f : Frame), s.Inv → s.fault = none → s.st = .requesting → s.pend = some f →
    noResetFor k s →
    (observe k s).take (beatCount s.cfg.c f.len) <+: frameBeats s.cfg f.bytes

/-- With every edge active, `ack` at the first and a source that answers, a frame takes exactly `B(N)` steps for its
`B(N)` beats: every step shows one of them, with `req` after it, and the last leaves the block in REQUESTING without a
fault (70_reset_and_hazards section 6 and 42_framestreamer section 5, rules the spec marks "derived"). -/
def Obligations.FrameTakesOneStepPerBeat : Prop :=
  ∀ (s : State) (f : Frame) (bs : List Byte), s.Inv → s.fault = none → s.st = .requesting → s.pend = some f →
    s.nextAnswer = .frame bs → fitsSlot s.cfg bs.length = true →
    (s.edgeInAfter 0).ack = true →
    (∀ j, j < beatCount s.cfg.c f.len → (s.edgeInAfter j).rst = false ∧ (s.edgeInAfter j).avail = true) →
    observe (beatCount s.cfg.c f.len) s = frameBeats s.cfg f.bytes ∧
    (observation (beatCount s.cfg.c f.len) s).steps =
      (frameBeats s.cfg f.bytes).map (fun p => { beat := some p.1, req := p.2 }) ∧
    (observation (beatCount s.cfg.c f.len) s).final.st = .requesting ∧
    (observation (beatCount s.cfg.c f.len) s).faultFree = true

/-- The emitted beats, and `req` after each, do not depend on `avail` or `ack`: of two runs that differ only in the
harness's inputs, one shows a prefix of what the other shows (42_framestreamer section 5, a rule the spec marks
"derived"). -/
def Obligations.BeatsIndependentOfHarness : Prop :=
  ∀ (j k : Nat) (s t : State), sameBlock s t → noResetFor j s → noResetFor k t →
    observe j s <+: observe k t ∨ observe k t <+: observe j s

/-- The bubbles are the REQ_HOLD steps taken after a frame has become current (42_framestreamer section 5, a rule
the spec marks "derived"). -/
def Obligations.BubblesAreHolds : Prop :=
  ∀ s : State, s.Inv → raises s = false →
    (isBubble s = true ↔ s.selected = .op .reqHold ∧ s.cur ≠ none)

/-! ### Invariants -/

/-- Every step keeps the invariant of reachable states, and so the final state of every run has it, in whatever state
the run finds the block (10_state section 5, a rule the spec marks "derived"; a run as 70_reset_and_hazards section 5
has it, loaded as in log 25). -/
def Obligations.ReachableInvariantKept : Prop :=
  (∀ s t : State, s.Inv → step s = .next t → t.Inv) ∧
  ∀ (r : Run) (before : State), r.startsWithReset = true → (r.observation before).final.Inv

/-- Every step keeps the canonical form of the two slots: thresholds as THRESH computes them, length within NMAX
(41_framebuffer section 1; 20_memory section 1; that this is the form of the memory is the model's choice, log 13). -/
def Obligations.MemoryFormKept : Prop :=
  ∀ s t : State, Memory.wf s = true → step s = .next t → Memory.wf t = true

/-- Every step keeps the output register's form: `err` 0 (42_framestreamer section 4), `usr` TAG (42_framestreamer
section 2; the spec's decision D9, log 16), no bit above a field's width (the widths are 30_encoding section 1's; that
a field is held right-aligned with zeros above it is the model's choice, log 11). -/
def Obligations.OutputFormKept : Prop :=
  ∀ s t : State, OutInv s → step s = .next t → OutInv t

/-- Every step keeps `bits = 8 * cur.N` (10_state section 1; the formula is the spec's decision D10, log 14). -/
def Obligations.BitsHintKept : Prop :=
  ∀ s t : State, BitsInv s → step s = .next t → BitsInv t

/-- The reset state meets every invariant above, and so does the state after any reset edge (10_state sections 5 and 6;
the forms of the memory and of the output register are the model's choice, logs 13 and 11). -/
def Obligations.InvariantsAtReset : Prop :=
  State.reset.Inv ∧ Memory.wf State.reset = true ∧ OutInv State.reset ∧ BitsInv State.reset ∧
  ∀ s t : State, s.edgeIn.rst = true → step s = .next t → t.Inv ∧ Memory.wf t = true ∧ OutInv t ∧ BitsInv t
end

