-- ==== Sys2Proof/Laws/Codec.lean ====
section
/-!
SUPPORT. BeatCodec: the lanes of a packed word, its width, and the two codes as arithmetic.
-/

namespace Sys2Proof.Machine

theorem bytes_pos (c : WidthClass) : 0 < c.bytes := by cases c <;> decide

theorem bytes_le_64 (c : WidthClass) : c.bytes ≤ 64 := by cases c <;> decide

theorem two_pow_modW (c : WidthClass) : 2 ^ c.modW = c.bytes := rfl

@[simp] theorem memRead_length (bs : List Byte) (off n : Nat) : (memRead bs off n).length = n := by
  simp [memRead]

theorem memRead_getElem {bs : List Byte} {off n j : Nat} (h : j < (memRead bs off n).length) :
    (memRead bs off n)[j] = byteAt bs (off + j) := by
  simp [memRead]

/-- Past the frame's end every byte reads 0. -/
theorem byteAt_past {bs : List Byte} {i : Nat} (h : bs.length ≤ i) : byteAt bs i = 0 := by
  simp [byteAt, List.getElem?_eq_none h]

theorem byteAt_lt {bs : List Byte} {i : Nat} (h : i < bs.length) : byteAt bs i = bs[i] := by
  simp [byteAt, h]

theorem wordOfLanes_append (bs : List Byte) (b : Byte) :
    wordOfLanes (bs ++ [b]) = (wordOfLanes bs <<< 8) ||| b.setWidth 512 := by
  simp [wordOfLanes]

/-- Bit `8i + r` of a word of at most 64 lanes is bit `r` of the `i`-th lane from the end. -/
theorem wordOfLanes_getLsbD (bs : List Byte) (i r : Nat) (hr : r < 8) (hl : bs.length ≤ 64) :
    (wordOfLanes bs).getLsbD (8 * i + r) =
      (if h : i < bs.length then (bs[bs.length - 1 - i]'(by omega)).getLsbD r else false) := by
  induction bs using List.reverseRecOn generalizing i with
  | nil => simp [wordOfLanes]
  | append_singleton bs b ih =>
    have hlen : bs.length ≤ 64 := by simp at hl; omega
    rw [wordOfLanes_append, BitVec.getLsbD_or, BitVec.getLsbD_shiftLeft, BitVec.getLsbD_setWidth]
    cases i with
    | zero =>
      have : r < 512 := by omega
      simp [hr, this]
    | succ i =>
      have hz : b.getLsbD (8 * (i + 1) + r) = false := BitVec.getLsbD_of_ge _ _ (by omega)
      have hs : 8 * (i + 1) + r - 8 = 8 * i + r := by omega
      have hn : ¬ 8 * (i + 1) + r < 8 := by omega
      rw [hz, hs, ih i hlen]
      simp only [List.length_append, List.length_singleton, Bool.and_false, Bool.or_false]
      by_cases h : i < bs.length
      · simp only [List.length_append, List.length_singleton] at hl
        have h512 : 8 * (i + 1) + r < 512 := by omega
        have hidx : bs.length - (i + 1) = bs.length - 1 - i := by omega
        have hlt : bs.length - 1 - i < bs.length := by omega
        have hget : (bs ++ [b])[bs.length - 1 - i]'(by simp; omega) = bs[bs.length - 1 - i] :=
          List.getElem_append_left hlt
        simp [h, h512, hn, hidx, hget]
      · simp [h]

/-- A word of lanes has no bit above its lanes. -/
theorem wordOfLanes_getLsbD_high (bs : List Byte) (k : Nat) (hk : 8 * bs.length ≤ k) (hl : bs.length ≤ 64) :
    (wordOfLanes bs).getLsbD k = false := by
  have h := wordOfLanes_getLsbD bs (k / 8) (k % 8) (Nat.mod_lt _ (by decide)) hl
  rw [Nat.div_add_mod] at h
  rw [h, dif_neg (by omega)]

/-- Lane `j` of the word of `W` lanes is lane `j`. -/
theorem lane_wordOfLanes (c : WidthClass) {bs : List Byte} {j : Nat} (hb : bs.length = c.bytes) (hj : j < bs.length) :
    lane c (wordOfLanes bs) j = bs[j] := by
  have h64 := bytes_le_64 c
  apply BitVec.eq_of_getLsbD_eq
  intro r hr
  have he : 8 * c.bytes - 8 - 8 * j + r = 8 * (bs.length - 1 - j) + r := by omega
  have hi : bs.length - 1 - j < bs.length := by omega
  have hidx : bs.length - 1 - (bs.length - 1 - j) = j := by omega
  rw [lane, BitVec.getLsbD_extractLsb', he, wordOfLanes_getLsbD bs _ r hr (by omega)]
  simp [hr, hi, hidx]

/-- Lane `j` of a packed word holds the byte at `off + j`, 0 past the end. -/
theorem lane_packWord (c : WidthClass) (bs : List Byte) (off j : Nat) (hj : j < c.bytes) :
    lane c (packWord c bs off) j = byteAt bs (off + j) := by
  rw [packWord, lane_wordOfLanes c (by simp) (by simpa using hj), memRead_getElem]

/-- A packed word fits in `8W` bits. -/
theorem packWord_lt (c : WidthClass) (bs : List Byte) (off : Nat) : (packWord c bs off).toNat < 2 ^ c.datW := by
  have h64 := bytes_le_64 c
  apply Nat.lt_pow_two_of_testBit
  intro i hi
  rw [BitVec.testBit_toNat]
  exact wordOfLanes_getLsbD_high _ _ (by rw [memRead_length]; exact hi) (by simpa using h64)

/-- The single formula of 40_beatcodec R105. -/
theorem encVc_toNat (c : WidthClass) {k : Nat} (h : k ≤ c.bytes) : (encVc c k).toNat = k % c.bytes := by
  have key : ∀ k' : Nat, k' ≤ c.bytes → ((encVc c k').toNat = k' % c.bytes) := by
    cases c <;> decide
  exact key k h

/-- An encoded count fits in `c` bits. -/
theorem encVc_lt (c : WidthClass) {k : Nat} (h : k ≤ c.bytes) : (encVc c k).toNat < 2 ^ c.modW := by
  rw [encVc_toNat c h, two_pow_modW]
  exact Nat.mod_lt _ (bytes_pos c)

/-- Decoding as one formula (40_beatcodec R108). -/
theorem decVc_eq (c : WidthClass) {m : ModField} (h : m.toNat < 2 ^ c.modW) :
    decVc c m = if m = 0 then c.bytes else m.toNat := by
  have key : ∀ m' : ModField, m'.toNat < 2 ^ c.modW → decVc c m' = if m' = 0 then c.bytes else m'.toNat := by
    cases c <;> decide
  exact key m h

end Sys2Proof.Machine
end

