-- ==== Sys2Proof/Laws/Beats.lean ====
section
/-!
SUPPORT. The number of a frame's beats as the offset of its last one (42_framestreamer R167).
-/

namespace Sys2Proof.Machine

/-- A frame no longer than a beat has one. -/
theorem beatCount_of_le (c : WidthClass) {n : Nat} (h : n ≤ c.bytes) : beatCount c n = 1 := by
  have hp := bytes_pos c
  have : (n + c.bytes - 1) / c.bytes < 2 := by
    rw [Nat.div_lt_iff_lt_mul hp]
    omega
  unfold beatCount
  omega

/-- The last beat of a frame starts at the one multiple `m` of `W` with `m < N ≤ m + W`. -/
theorem beatCount_last_offset (c : WidthClass) {n m : Nat} (hm : m % c.bytes = 0) (h1 : m < n)
    (h2 : n ≤ m + c.bytes) : c.bytes * (beatCount c n - 1) = m := by
  have hp := bytes_pos c
  obtain ⟨q, rfl⟩ := Nat.dvd_of_mod_eq_zero hm
  have hq : (q + 1) * c.bytes = c.bytes * q + c.bytes := by ring
  have : (n + c.bytes - 1) / c.bytes = q + 1 := by
    rw [Nat.div_eq_iff hp]
    omega
  simp [beatCount, this]

end Sys2Proof.Machine
end

