-- ==== Sys2Proof/Laws/State.lean ====
section
/-!
SUPPORT. One lemma per field per update of the state, so that no proof unfolds a record update.
-/

namespace Sys2Proof.Machine

/-! ### State.setSt -/

@[simp] theorem State.setSt_st (s : State) (x : St) : (s.setSt x).st = x := rfl
@[simp] theorem State.setSt_cur (s : State) (x : St) : (s.setSt x).cur = s.cur := rfl
@[simp] theorem State.setSt_pend (s : State) (x : St) : (s.setSt x).pend = s.pend := rfl
@[simp] theorem State.setSt_cursor (s : State) (x : St) : (s.setSt x).cursor = s.cursor := rfl
@[simp] theorem State.setSt_req (s : State) (x : St) : (s.setSt x).req = s.req := rfl
@[simp] theorem State.setSt_out (s : State) (x : St) : (s.setSt x).out = s.out := rfl
@[simp] theorem State.setSt_bits (s : State) (x : St) : (s.setSt x).bits = s.bits := rfl
@[simp] theorem State.setSt_fault (s : State) (x : St) : (s.setSt x).fault = s.fault := rfl
@[simp] theorem State.setSt_cfg (s : State) (x : St) : (s.setSt x).cfg = s.cfg := rfl
@[simp] theorem State.setSt_stimulus (s : State) (x : St) : (s.setSt x).stimulus = s.stimulus := rfl
@[simp] theorem State.setSt_edges (s : State) (x : St) : (s.setSt x).edges = s.edges := rfl
@[simp] theorem State.setSt_answers (s : State) (x : St) : (s.setSt x).answers = s.answers := rfl
@[simp] theorem State.setSt_calls (s : State) (x : St) : (s.setSt x).calls = s.calls := rfl
@[simp] theorem State.setSt_tap (s : State) (x : St) : (s.setSt x).tap = s.tap := rfl

/-! ### State.setCursor -/

@[simp] theorem State.setCursor_st (s : State) (n : Nat) : (s.setCursor n).st = s.st := rfl
@[simp] theorem State.setCursor_cur (s : State) (n : Nat) : (s.setCursor n).cur = s.cur := rfl
@[simp] theorem State.setCursor_pend (s : State) (n : Nat) : (s.setCursor n).pend = s.pend := rfl
@[simp] theorem State.setCursor_cursor (s : State) (n : Nat) : (s.setCursor n).cursor = n := rfl
@[simp] theorem State.setCursor_req (s : State) (n : Nat) : (s.setCursor n).req = s.req := rfl
@[simp] theorem State.setCursor_out (s : State) (n : Nat) : (s.setCursor n).out = s.out := rfl
@[simp] theorem State.setCursor_bits (s : State) (n : Nat) : (s.setCursor n).bits = s.bits := rfl
@[simp] theorem State.setCursor_fault (s : State) (n : Nat) : (s.setCursor n).fault = s.fault := rfl
@[simp] theorem State.setCursor_cfg (s : State) (n : Nat) : (s.setCursor n).cfg = s.cfg := rfl
@[simp] theorem State.setCursor_stimulus (s : State) (n : Nat) : (s.setCursor n).stimulus = s.stimulus := rfl
@[simp] theorem State.setCursor_edges (s : State) (n : Nat) : (s.setCursor n).edges = s.edges := rfl
@[simp] theorem State.setCursor_answers (s : State) (n : Nat) : (s.setCursor n).answers = s.answers := rfl
@[simp] theorem State.setCursor_calls (s : State) (n : Nat) : (s.setCursor n).calls = s.calls := rfl
@[simp] theorem State.setCursor_tap (s : State) (n : Nat) : (s.setCursor n).tap = s.tap := rfl

/-! ### State.setReq -/

@[simp] theorem State.setReq_st (s : State) (b : Bool) : (s.setReq b).st = s.st := rfl
@[simp] theorem State.setReq_cur (s : State) (b : Bool) : (s.setReq b).cur = s.cur := rfl
@[simp] theorem State.setReq_pend (s : State) (b : Bool) : (s.setReq b).pend = s.pend := rfl
@[simp] theorem State.setReq_cursor (s : State) (b : Bool) : (s.setReq b).cursor = s.cursor := rfl
@[simp] theorem State.setReq_req (s : State) (b : Bool) : (s.setReq b).req = b := rfl
@[simp] theorem State.setReq_out (s : State) (b : Bool) : (s.setReq b).out = s.out := rfl
@[simp] theorem State.setReq_bits (s : State) (b : Bool) : (s.setReq b).bits = s.bits := rfl
@[simp] theorem State.setReq_fault (s : State) (b : Bool) : (s.setReq b).fault = s.fault := rfl
@[simp] theorem State.setReq_cfg (s : State) (b : Bool) : (s.setReq b).cfg = s.cfg := rfl
@[simp] theorem State.setReq_stimulus (s : State) (b : Bool) : (s.setReq b).stimulus = s.stimulus := rfl
@[simp] theorem State.setReq_edges (s : State) (b : Bool) : (s.setReq b).edges = s.edges := rfl
@[simp] theorem State.setReq_answers (s : State) (b : Bool) : (s.setReq b).answers = s.answers := rfl
@[simp] theorem State.setReq_calls (s : State) (b : Bool) : (s.setReq b).calls = s.calls := rfl
@[simp] theorem State.setReq_tap (s : State) (b : Bool) : (s.setReq b).tap = s.tap := rfl

/-! ### State.setOut -/

@[simp] theorem State.setOut_st (s : State) (b : Beat) : (s.setOut b).st = s.st := rfl
@[simp] theorem State.setOut_cur (s : State) (b : Beat) : (s.setOut b).cur = s.cur := rfl
@[simp] theorem State.setOut_pend (s : State) (b : Beat) : (s.setOut b).pend = s.pend := rfl
@[simp] theorem State.setOut_cursor (s : State) (b : Beat) : (s.setOut b).cursor = s.cursor := rfl
@[simp] theorem State.setOut_req (s : State) (b : Beat) : (s.setOut b).req = s.req := rfl
@[simp] theorem State.setOut_out (s : State) (b : Beat) : (s.setOut b).out = b := rfl
@[simp] theorem State.setOut_bits (s : State) (b : Beat) : (s.setOut b).bits = s.bits := rfl
@[simp] theorem State.setOut_fault (s : State) (b : Beat) : (s.setOut b).fault = s.fault := rfl
@[simp] theorem State.setOut_cfg (s : State) (b : Beat) : (s.setOut b).cfg = s.cfg := rfl
@[simp] theorem State.setOut_stimulus (s : State) (b : Beat) : (s.setOut b).stimulus = s.stimulus := rfl
@[simp] theorem State.setOut_edges (s : State) (b : Beat) : (s.setOut b).edges = s.edges := rfl
@[simp] theorem State.setOut_answers (s : State) (b : Beat) : (s.setOut b).answers = s.answers := rfl
@[simp] theorem State.setOut_calls (s : State) (b : Beat) : (s.setOut b).calls = s.calls := rfl
@[simp] theorem State.setOut_tap (s : State) (b : Beat) : (s.setOut b).tap = s.tap := rfl

/-! ### State.setBits -/

@[simp] theorem State.setBits_st (s : State) (n : Nat) : (s.setBits n).st = s.st := rfl
@[simp] theorem State.setBits_cur (s : State) (n : Nat) : (s.setBits n).cur = s.cur := rfl
@[simp] theorem State.setBits_pend (s : State) (n : Nat) : (s.setBits n).pend = s.pend := rfl
@[simp] theorem State.setBits_cursor (s : State) (n : Nat) : (s.setBits n).cursor = s.cursor := rfl
@[simp] theorem State.setBits_req (s : State) (n : Nat) : (s.setBits n).req = s.req := rfl
@[simp] theorem State.setBits_out (s : State) (n : Nat) : (s.setBits n).out = s.out := rfl
@[simp] theorem State.setBits_bits (s : State) (n : Nat) : (s.setBits n).bits = n := rfl
@[simp] theorem State.setBits_fault (s : State) (n : Nat) : (s.setBits n).fault = s.fault := rfl
@[simp] theorem State.setBits_cfg (s : State) (n : Nat) : (s.setBits n).cfg = s.cfg := rfl
@[simp] theorem State.setBits_stimulus (s : State) (n : Nat) : (s.setBits n).stimulus = s.stimulus := rfl
@[simp] theorem State.setBits_edges (s : State) (n : Nat) : (s.setBits n).edges = s.edges := rfl
@[simp] theorem State.setBits_answers (s : State) (n : Nat) : (s.setBits n).answers = s.answers := rfl
@[simp] theorem State.setBits_calls (s : State) (n : Nat) : (s.setBits n).calls = s.calls := rfl
@[simp] theorem State.setBits_tap (s : State) (n : Nat) : (s.setBits n).tap = s.tap := rfl

/-! ### State.setTap -/

@[simp] theorem State.setTap_st (s : State) (t : Tap) : (s.setTap t).st = s.st := rfl
@[simp] theorem State.setTap_cur (s : State) (t : Tap) : (s.setTap t).cur = s.cur := rfl
@[simp] theorem State.setTap_pend (s : State) (t : Tap) : (s.setTap t).pend = s.pend := rfl
@[simp] theorem State.setTap_cursor (s : State) (t : Tap) : (s.setTap t).cursor = s.cursor := rfl
@[simp] theorem State.setTap_req (s : State) (t : Tap) : (s.setTap t).req = s.req := rfl
@[simp] theorem State.setTap_out (s : State) (t : Tap) : (s.setTap t).out = s.out := rfl
@[simp] theorem State.setTap_bits (s : State) (t : Tap) : (s.setTap t).bits = s.bits := rfl
@[simp] theorem State.setTap_fault (s : State) (t : Tap) : (s.setTap t).fault = s.fault := rfl
@[simp] theorem State.setTap_cfg (s : State) (t : Tap) : (s.setTap t).cfg = s.cfg := rfl
@[simp] theorem State.setTap_stimulus (s : State) (t : Tap) : (s.setTap t).stimulus = s.stimulus := rfl
@[simp] theorem State.setTap_edges (s : State) (t : Tap) : (s.setTap t).edges = s.edges := rfl
@[simp] theorem State.setTap_answers (s : State) (t : Tap) : (s.setTap t).answers = s.answers := rfl
@[simp] theorem State.setTap_calls (s : State) (t : Tap) : (s.setTap t).calls = s.calls := rfl
@[simp] theorem State.setTap_tap (s : State) (t : Tap) : (s.setTap t).tap = t := rfl

/-! ### State.setPend -/

@[simp] theorem State.setPend_st (s : State) (f : Frame) : (s.setPend f).st = s.st := rfl
@[simp] theorem State.setPend_cur (s : State) (f : Frame) : (s.setPend f).cur = s.cur := rfl
@[simp] theorem State.setPend_pend (s : State) (f : Frame) : (s.setPend f).pend = some f := rfl
@[simp] theorem State.setPend_cursor (s : State) (f : Frame) : (s.setPend f).cursor = s.cursor := rfl
@[simp] theorem State.setPend_req (s : State) (f : Frame) : (s.setPend f).req = s.req := rfl
@[simp] theorem State.setPend_out (s : State) (f : Frame) : (s.setPend f).out = s.out := rfl
@[simp] theorem State.setPend_bits (s : State) (f : Frame) : (s.setPend f).bits = s.bits := rfl
@[simp] theorem State.setPend_fault (s : State) (f : Frame) : (s.setPend f).fault = s.fault := rfl
@[simp] theorem State.setPend_cfg (s : State) (f : Frame) : (s.setPend f).cfg = s.cfg := rfl
@[simp] theorem State.setPend_stimulus (s : State) (f : Frame) : (s.setPend f).stimulus = s.stimulus := rfl
@[simp] theorem State.setPend_edges (s : State) (f : Frame) : (s.setPend f).edges = s.edges := rfl
@[simp] theorem State.setPend_answers (s : State) (f : Frame) : (s.setPend f).answers = s.answers := rfl
@[simp] theorem State.setPend_calls (s : State) (f : Frame) : (s.setPend f).calls = s.calls := rfl
@[simp] theorem State.setPend_tap (s : State) (f : Frame) : (s.setPend f).tap = s.tap := rfl

/-! ### State.moveToCur -/

@[simp] theorem State.moveToCur_st (s : State) (f : Frame) : (s.moveToCur f).st = s.st := rfl
@[simp] theorem State.moveToCur_cur (s : State) (f : Frame) : (s.moveToCur f).cur = some f := rfl
@[simp] theorem State.moveToCur_pend (s : State) (f : Frame) : (s.moveToCur f).pend = none := rfl
@[simp] theorem State.moveToCur_cursor (s : State) (f : Frame) : (s.moveToCur f).cursor = s.cursor := rfl
@[simp] theorem State.moveToCur_req (s : State) (f : Frame) : (s.moveToCur f).req = s.req := rfl
@[simp] theorem State.moveToCur_out (s : State) (f : Frame) : (s.moveToCur f).out = s.out := rfl
@[simp] theorem State.moveToCur_bits (s : State) (f : Frame) : (s.moveToCur f).bits = s.bits := rfl
@[simp] theorem State.moveToCur_fault (s : State) (f : Frame) : (s.moveToCur f).fault = s.fault := rfl
@[simp] theorem State.moveToCur_cfg (s : State) (f : Frame) : (s.moveToCur f).cfg = s.cfg := rfl
@[simp] theorem State.moveToCur_stimulus (s : State) (f : Frame) : (s.moveToCur f).stimulus = s.stimulus := rfl
@[simp] theorem State.moveToCur_edges (s : State) (f : Frame) : (s.moveToCur f).edges = s.edges := rfl
@[simp] theorem State.moveToCur_answers (s : State) (f : Frame) : (s.moveToCur f).answers = s.answers := rfl
@[simp] theorem State.moveToCur_calls (s : State) (f : Frame) : (s.moveToCur f).calls = s.calls := rfl
@[simp] theorem State.moveToCur_tap (s : State) (f : Frame) : (s.moveToCur f).tap = s.tap := rfl

/-! ### State.consumeAnswer -/

@[simp] theorem State.consumeAnswer_st (s : State) : (s.consumeAnswer).st = s.st := rfl
@[simp] theorem State.consumeAnswer_cur (s : State) : (s.consumeAnswer).cur = s.cur := rfl
@[simp] theorem State.consumeAnswer_pend (s : State) : (s.consumeAnswer).pend = s.pend := rfl
@[simp] theorem State.consumeAnswer_cursor (s : State) : (s.consumeAnswer).cursor = s.cursor := rfl
@[simp] theorem State.consumeAnswer_req (s : State) : (s.consumeAnswer).req = s.req := rfl
@[simp] theorem State.consumeAnswer_out (s : State) : (s.consumeAnswer).out = s.out := rfl
@[simp] theorem State.consumeAnswer_bits (s : State) : (s.consumeAnswer).bits = s.bits := rfl
@[simp] theorem State.consumeAnswer_fault (s : State) : (s.consumeAnswer).fault = s.fault := rfl
@[simp] theorem State.consumeAnswer_cfg (s : State) : (s.consumeAnswer).cfg = s.cfg := rfl
@[simp] theorem State.consumeAnswer_stimulus (s : State) : (s.consumeAnswer).stimulus = s.stimulus := rfl
@[simp] theorem State.consumeAnswer_edges (s : State) : (s.consumeAnswer).edges = s.edges := rfl
@[simp] theorem State.consumeAnswer_answers (s : State) : (s.consumeAnswer).answers = s.answers.tail := rfl
@[simp] theorem State.consumeAnswer_calls (s : State) : (s.consumeAnswer).calls = s.calls + 1 := rfl
@[simp] theorem State.consumeAnswer_tap (s : State) : (s.consumeAnswer).tap = s.tap := rfl

/-! ### State.tick -/

@[simp] theorem State.tick_st (s : State) : (s.tick).st = s.st := rfl
@[simp] theorem State.tick_cur (s : State) : (s.tick).cur = s.cur := rfl
@[simp] theorem State.tick_pend (s : State) : (s.tick).pend = s.pend := rfl
@[simp] theorem State.tick_cursor (s : State) : (s.tick).cursor = s.cursor := rfl
@[simp] theorem State.tick_req (s : State) : (s.tick).req = s.req := rfl
@[simp] theorem State.tick_out (s : State) : (s.tick).out = s.out := rfl
@[simp] theorem State.tick_bits (s : State) : (s.tick).bits = s.bits := rfl
@[simp] theorem State.tick_fault (s : State) : (s.tick).fault = s.fault := rfl
@[simp] theorem State.tick_cfg (s : State) : (s.tick).cfg = s.cfg := rfl
@[simp] theorem State.tick_stimulus (s : State) : (s.tick).stimulus = s.stimulus.tail := rfl
@[simp] theorem State.tick_edges (s : State) : (s.tick).edges = s.edges + 1 := rfl
@[simp] theorem State.tick_answers (s : State) : (s.tick).answers = s.answers := rfl
@[simp] theorem State.tick_calls (s : State) : (s.tick).calls = s.calls := rfl
@[simp] theorem State.tick_tap (s : State) : (s.tick).tap = s.tap := rfl

/-! ### takeFault -/

@[simp] theorem takeFault_st (s : State) (f : BlockFault) (a : State) : (takeFault s f a).st = s.st := rfl
@[simp] theorem takeFault_cur (s : State) (f : BlockFault) (a : State) : (takeFault s f a).cur = s.cur := rfl
@[simp] theorem takeFault_pend (s : State) (f : BlockFault) (a : State) : (takeFault s f a).pend = s.pend := rfl
@[simp] theorem takeFault_cursor (s : State) (f : BlockFault) (a : State) : (takeFault s f a).cursor = s.cursor := rfl
@[simp] theorem takeFault_req (s : State) (f : BlockFault) (a : State) : (takeFault s f a).req = s.req := rfl
@[simp] theorem takeFault_out (s : State) (f : BlockFault) (a : State) : (takeFault s f a).out = s.out := rfl
@[simp] theorem takeFault_bits (s : State) (f : BlockFault) (a : State) : (takeFault s f a).bits = s.bits := rfl
@[simp] theorem takeFault_fault (s : State) (f : BlockFault) (a : State) : (takeFault s f a).fault = some f := rfl
@[simp] theorem takeFault_cfg (s : State) (f : BlockFault) (a : State) : (takeFault s f a).cfg = s.cfg := rfl
@[simp] theorem takeFault_stimulus (s : State) (f : BlockFault) (a : State) : (takeFault s f a).stimulus = s.stimulus := rfl
@[simp] theorem takeFault_edges (s : State) (f : BlockFault) (a : State) : (takeFault s f a).edges = s.edges := rfl
@[simp] theorem takeFault_answers (s : State) (f : BlockFault) (a : State) : (takeFault s f a).answers = a.answers := rfl
@[simp] theorem takeFault_calls (s : State) (f : BlockFault) (a : State) : (takeFault s f a).calls = a.calls := rfl
@[simp] theorem takeFault_tap (s : State) (f : BlockFault) (a : State) : (takeFault s f a).tap = s.tap := rfl

/-! ### resetState -/

@[simp] theorem resetState_st (s : State) : (resetState s).st = .init := rfl
@[simp] theorem resetState_cur (s : State) : (resetState s).cur = none := rfl
@[simp] theorem resetState_pend (s : State) : (resetState s).pend = none := rfl
@[simp] theorem resetState_cursor (s : State) : (resetState s).cursor = 0 := rfl
@[simp] theorem resetState_req (s : State) : (resetState s).req = false := rfl
@[simp] theorem resetState_out (s : State) : (resetState s).out = idleBeatOf s.cfg := rfl
@[simp] theorem resetState_bits (s : State) : (resetState s).bits = 0 := rfl
@[simp] theorem resetState_fault (s : State) : (resetState s).fault = none := rfl
@[simp] theorem resetState_cfg (s : State) : (resetState s).cfg = s.cfg := rfl
@[simp] theorem resetState_stimulus (s : State) : (resetState s).stimulus = s.stimulus := rfl
@[simp] theorem resetState_edges (s : State) : (resetState s).edges = s.edges := rfl
@[simp] theorem resetState_answers (s : State) : (resetState s).answers = s.answers := rfl
@[simp] theorem resetState_calls (s : State) : (resetState s).calls = s.calls := rfl
@[simp] theorem resetState_tap (s : State) : (resetState s).tap = .nothing := rfl

end Sys2Proof.Machine
end

