-- ==== Sys2Proof/Laws/Flow.lean ====
section
/-!
SUPPORT. The flow of a step's pseudocode: what a sequence of operations and the end of a step can answer.
-/

namespace Sys2Proof.Machine

@[simp] theorem Flow.andThen_go (s : State) (k : State → Flow) : (Flow.go s).andThen k = k s := rfl

@[simp] theorem Flow.andThen_raised (f : BlockFault) (s : State) (k : State → Flow) :
    (Flow.raised f s).andThen k = .raised f s := rfl

@[simp] theorem Flow.andThen_emptyRead (k : State → Flow) : Flow.emptyRead.andThen k = .emptyRead := rfl

@[simp] theorem commit_go (s t : State) : commit s (.go t) = .next t := rfl

@[simp] theorem commit_raised (s a : State) (f : BlockFault) :
    commit s (.raised f a) = .next (takeFault s f a) := rfl

@[simp] theorem commit_emptyRead (s : State) : commit s .emptyRead = .fault .emptySlotRead := rfl

/-- A step that answers a next state either went through or took a fault. -/
theorem commit_eq_next {s t : State} {x : Flow} :
    commit s x = .next t ↔ x = .go t ∨ ∃ f a, x = .raised f a ∧ t = takeFault s f a := by
  cases x with
  | go u => simp [eq_comm]
  | raised f a =>
    simp only [commit_raised, Host.Outcome.next.injEq, reduceCtorEq, Flow.raised.injEq, false_or]
    exact ⟨fun h => ⟨f, a, ⟨rfl, rfl⟩, h.symm⟩, fun ⟨_, _, ⟨hf, ha⟩, h⟩ => by rw [h, hf, ha]⟩
  | emptyRead => simp

/-- A flow that reads no empty slot ends in a next state. -/
theorem commit_next_of_ne {s : State} {x : Flow} (h : x ≠ .emptyRead) : ∃ t, commit s x = .next t := by
  cases x with
  | go t => exact ⟨t, rfl⟩
  | raised f a => exact ⟨_, rfl⟩
  | emptyRead => exact absurd rfl h

/-- What a sequence that went through consists of. -/
theorem Flow.andThen_eq_go {x : Flow} {k : State → Flow} {t : State} :
    x.andThen k = .go t ↔ ∃ s, x = .go s ∧ k s = .go t := by
  cases x <;> simp [Flow.andThen]

/-- Where a sequence that raised did so. -/
theorem Flow.andThen_eq_raised {x : Flow} {k : State → Flow} {f : BlockFault} {a : State} :
    x.andThen k = .raised f a ↔ x = .raised f a ∨ ∃ s, x = .go s ∧ k s = .raised f a := by
  cases x <;> simp [Flow.andThen]

end Sys2Proof.Machine
end

