-- ==== Sys2Proof/Laws/FrameBuffer.lean ====
section
/-!
SUPPORT. THRESH, FETCH and SWAP: everything each can do.
-/

namespace Sys2Proof.Machine

@[simp] theorem threshFrame_bytes (c : WidthClass) (bs : List Byte) : (threshFrame c bs).bytes = bs := rfl

@[simp] theorem threshFrame_lastOffset (c : WidthClass) (bs : List Byte) :
    (threshFrame c bs).lastOffset = bs.length - c.bytes := rfl

@[simp] theorem threshFrame_prefetchOffset (c : WidthClass) (bs : List Byte) :
    (threshFrame c bs).prefetchOffset = bs.length - 2 * c.bytes := rfl

@[simp] theorem threshFrame_len (c : WidthClass) (bs : List Byte) : (threshFrame c bs).len = bs.length := rfl

/-- FETCH with the slot full raises before the call. -/
theorem fetchFlow_occupied {s : State} {g : Frame} (h : s.pend = some g) :
    fetchFlow s = .raised (.invariantFailure .pendingOccupied) s := by
  simp [fetchFlow, h]

/-- FETCH of an error. -/
theorem fetchFlow_sourceError {s : State} (h : s.pend = none) (ha : s.nextAnswer = .sourceError) :
    fetchFlow s = .raised .sourceError s.consumeAnswer := by
  simp [fetchFlow, h, ha]

/-- FETCH of a frame the slot holds. -/
theorem fetchFlow_frame {s : State} {bs : List Byte} (h : s.pend = none) (ha : s.nextAnswer = .frame bs)
    (hn : fitsSlot s.cfg bs.length = true) :
    fetchFlow s = .go (s.consumeAnswer.setPend (threshFrame s.cfg.c bs)) := by
  simp [fetchFlow, h, ha, hn]

/-- FETCH of a frame longer than the slot. -/
theorem fetchFlow_tooLong {s : State} {bs : List Byte} (h : s.pend = none) (ha : s.nextAnswer = .frame bs)
    (hn : fitsSlot s.cfg bs.length = false) :
    fetchFlow s = .raised (.frameTooLong bs.length) s.consumeAnswer := by
  simp [fetchFlow, h, ha, hn]

/-- All FETCH can do. -/
theorem fetchFlow_cases (s : State) :
    (s.pend ≠ none ∧ fetchFlow s = .raised (.invariantFailure .pendingOccupied) s) ∨
    (s.pend = none ∧ s.nextAnswer = .sourceError ∧ fetchFlow s = .raised .sourceError s.consumeAnswer) ∨
    (∃ bs, s.pend = none ∧ s.nextAnswer = .frame bs ∧ fitsSlot s.cfg bs.length = true ∧
      fetchFlow s = .go (s.consumeAnswer.setPend (threshFrame s.cfg.c bs))) ∨
    (∃ bs, s.pend = none ∧ s.nextAnswer = .frame bs ∧ fitsSlot s.cfg bs.length = false ∧
      fetchFlow s = .raised (.frameTooLong bs.length) s.consumeAnswer) := by
  cases hp : s.pend with
  | some g => exact .inl ⟨by simp, fetchFlow_occupied hp⟩
  | none =>
    cases ha : s.nextAnswer with
    | sourceError => exact .inr (.inl ⟨rfl, rfl, fetchFlow_sourceError hp ha⟩)
    | frame bs =>
      cases hn : fitsSlot s.cfg bs.length with
      | true => exact .inr (.inr (.inl ⟨bs, rfl, rfl, hn, fetchFlow_frame hp ha hn⟩))
      | false => exact .inr (.inr (.inr ⟨bs, rfl, rfl, hn, fetchFlow_tooLong hp ha hn⟩))

/-- FETCH depends on the slot, the answer and the configuration only. -/
theorem nextAnswer_congr {s t : State} (ha : s.answers = t.answers) (hc : s.calls = t.calls) :
    s.nextAnswer = t.nextAnswer := by
  simp [State.nextAnswer, ha, hc]

theorem swapFlow_none {s : State} (h : s.pend = none) :
    swapFlow s = .raised (.invariantFailure .pendingEmpty) s := by
  simp [swapFlow, h]

theorem swapFlow_some {s : State} {f : Frame} (h : s.pend = some f) : swapFlow s = .go (s.moveToCur f) := by
  simp [swapFlow, h]

end Sys2Proof.Machine
end

