-- ==== Sys2Proof/Laws/Memory.lean ====
section
/-!
SUPPORT. Every memory operation keeps the canonical form of the two slots (`Memory.wf`), and reset has it.
-/

namespace Sys2Proof.Machine

theorem Memory.wf_iff {s : State} : Memory.wf s = true ↔ slotWf s.cfg s.cur = true ∧ slotWf s.cfg s.pend = true := by
  simp [Memory.wf]

theorem slotWf_some {cfg : Config} {f : Frame} :
    slotWf cfg (some f) = true ↔
      (f.lastOffset = f.len - cfg.c.bytes ∧ f.prefetchOffset = f.len - 2 * cfg.c.bytes) ∧ fitsSlot cfg f.len = true := by
  simp [slotWf]

@[simp] theorem slotWf_none (cfg : Config) : slotWf cfg none = true := rfl

/-- A frame THRESH makes within NMAX is well formed. -/
theorem slotWf_threshFrame {cfg : Config} {bs : List Byte} (h : fitsSlot cfg bs.length = true) :
    slotWf cfg (some (threshFrame cfg.c bs)) = true := by
  simp [slotWf_some, h]

/-- The form depends on the slots and the configuration only. -/
theorem Memory.wf_congr {s t : State} (hg : t.cfg = s.cfg) (hc : t.cur = s.cur) (hp : t.pend = s.pend) :
    Memory.wf t = Memory.wf s := by
  simp [Memory.wf, hg, hc, hp]

/-- The write of a fetched frame. -/
theorem Memory.wf_setPend {s : State} {bs : List Byte} (h : Memory.wf s = true)
    (hn : fitsSlot s.cfg bs.length = true) : Memory.wf (s.setPend (threshFrame s.cfg.c bs)) = true :=
  Memory.wf_iff.mpr ⟨(Memory.wf_iff.mp h).1, slotWf_threshFrame hn⟩

/-- The move of SWAP. -/
theorem Memory.wf_moveToCur {s : State} {f : Frame} (h : Memory.wf s = true) (hf : s.pend = some f) :
    Memory.wf (s.moveToCur f) = true :=
  Memory.wf_iff.mpr ⟨by rw [State.moveToCur_cfg, State.moveToCur_cur, ← hf]; exact (Memory.wf_iff.mp h).2, rfl⟩

/-- FETCH keeps the form, where it goes on and where it raises. -/
theorem Memory.wf_fetchFlow {s : State} (h : Memory.wf s = true) :
    (∀ t, fetchFlow s = .go t → Memory.wf t = true) ∧ (∀ f t, fetchFlow s = .raised f t → Memory.wf t = true) := by
  rcases fetchFlow_cases s with ⟨_, e⟩ | ⟨_, _, e⟩ | ⟨bs, _, _, hn, e⟩ | ⟨bs, _, _, _, e⟩ <;> rw [e] <;>
    refine ⟨fun t ht => ?_, fun f t ht => ?_⟩ <;> cases ht
  · exact h
  · exact h
  · exact Memory.wf_setPend (s := s.consumeAnswer) h hn
  · exact h

/-- SWAP keeps the form. -/
theorem Memory.wf_swapFlow {s t : State} (h : Memory.wf s = true) (ht : swapFlow s = .go t) : Memory.wf t = true := by
  cases hp : s.pend with
  | none => simp [swapFlow_none hp] at ht
  | some f =>
    rw [swapFlow_some hp] at ht
    cases ht
    exact Memory.wf_moveToCur h hp

/-- A fault leaves the slots as they were. -/
theorem Memory.wf_takeFault {s : State} (f : BlockFault) (a : State) : Memory.wf (takeFault s f a) = Memory.wf s := rfl

/-- RESET empties both slots. -/
theorem Memory.wf_resetState (s : State) : Memory.wf (resetState s) = true := rfl

/-- The reset state's memory. -/
theorem Memory.wf_reset : Memory.wf State.reset = true := rfl

end Sys2Proof.Machine
end

