-- ==== Sys2Proof/Laws/PerInstr.lean ====
section
/-!
SUPPORT. Per-operation facts about the code each operation has.
-/

/-- The shape of a code: a control code is one byte below 64, a codec code one byte that is a class code, and a
micro-operation has no code byte (30_encoding R70, R78; spec/opcode_table.json). -/
def Sys2Proof.Laws.CodeShape.Statement (i : Sys2Proof.Instr) : Prop :=
  match (Sys2Proof.encode i).port with
  | .control => ∃ b, (Sys2Proof.encode i).code = [b] ∧ b.toNat < 64
  | .pack | .encVc | .decVc => ∃ b, (Sys2Proof.encode i).code = [b] ∧ b.toNat < 7
  | .thresh | .fetch | .swap | .beat | .idleBeat | .reqDecide | .nextState => (Sys2Proof.encode i).code = []

namespace Sys2Proof.Laws.CodeShape

/-- A control word in a byte leaves the two high bits 0. -/
theorem control_lt (w : BitVec 6) : (w.setWidth 8).toNat < 64 := by
  have := w.isLt
  rw [BitVec.toNat_setWidth]
  omega

/-- Every class code is below 7. -/
theorem class_lt (c : WidthClass) : ((c.code).setWidth 8).toNat < 7 := by cases c <;> decide

theorem idle (a : Bool) (b : BitVec 2) : Statement (.idle a b) := ⟨_, rfl, control_lt _⟩
theorem init (a : Bool) : Statement (.init a) := ⟨_, rfl, control_lt _⟩
theorem reqHold : Statement (.reqHold) := ⟨_, rfl, control_lt _⟩
theorem reqSwap : Statement (.reqSwap) := ⟨_, rfl, control_lt _⟩
theorem stream (a : Bool) : Statement (.stream a) := ⟨_, rfl, control_lt _⟩
theorem drain (a : Bool) : Statement (.drain a) := ⟨_, rfl, control_lt _⟩
theorem reset (a : Bool) (b : BitVec 4) : Statement (.reset a b) := ⟨_, rfl, control_lt _⟩
theorem faulted (a : BitVec 4) : Statement (.faulted a) := ⟨_, rfl, control_lt _⟩
theorem pack (c : WidthClass) (bs : List Byte) (off : Nat) : Statement (.pack c bs off) := ⟨_, rfl, class_lt c⟩
theorem encVcW1 (k : Fin 2) : Statement (.encVcW1 k) := ⟨_, rfl, class_lt .w1⟩
theorem encVcW2 (k : Fin 3) : Statement (.encVcW2 k) := ⟨_, rfl, class_lt .w2⟩
theorem encVcW4 (k : Fin 5) : Statement (.encVcW4 k) := ⟨_, rfl, class_lt .w4⟩
theorem encVcW8 (k : Fin 9) : Statement (.encVcW8 k) := ⟨_, rfl, class_lt .w8⟩
theorem encVcW16 (k : Fin 17) : Statement (.encVcW16 k) := ⟨_, rfl, class_lt .w16⟩
theorem encVcW32 (k : Fin 33) : Statement (.encVcW32 k) := ⟨_, rfl, class_lt .w32⟩
theorem encVcW64 (k : Fin 65) : Statement (.encVcW64 k) := ⟨_, rfl, class_lt .w64⟩
theorem decVcW1 : Statement (.decVcW1) := ⟨_, rfl, class_lt .w1⟩
theorem decVcW2 (m : BitVec 1) : Statement (.decVcW2 m) := ⟨_, rfl, class_lt .w2⟩
theorem decVcW4 (m : BitVec 2) : Statement (.decVcW4 m) := ⟨_, rfl, class_lt .w4⟩
theorem decVcW8 (m : BitVec 3) : Statement (.decVcW8 m) := ⟨_, rfl, class_lt .w8⟩
theorem decVcW16 (m : BitVec 4) : Statement (.decVcW16 m) := ⟨_, rfl, class_lt .w16⟩
theorem decVcW32 (m : BitVec 5) : Statement (.decVcW32 m) := ⟨_, rfl, class_lt .w32⟩
theorem decVcW64 (m : BitVec 6) : Statement (.decVcW64 m) := ⟨_, rfl, class_lt .w64⟩
theorem thresh (bs : List Byte) : Statement (.thresh bs) := rfl
theorem fetch : Statement (.fetch) := rfl
theorem swap : Statement (.swap) := rfl
theorem beat (b : Bool) : Statement (.beat b) := rfl
theorem idleBeat : Statement (.idleBeat) := rfl
theorem reqDecide : Statement (.reqDecide) := rfl
theorem nextState : Statement (.nextState) := rfl

end Sys2Proof.Laws.CodeShape
end

