-- ==== Sys2Proof/Laws/Streamer.lean ====
section
/-!
SUPPORT. The sub-operations and arms of the FrameStreamer: everything each can do, with the state after the beat
written once (`beatState`).
-/

namespace Sys2Proof.Machine

/-- The beat BEAT and NEXT_STATE together emit of frame `f` at cursor `n`. -/
def emittedBeat (cfg : Config) (f : Frame) (n : Nat) (sofv : Bool) : Beat :=
  { usr := cfg.tag, err := false, val := true, sof := sofv, eof := isLastBeat f n
    mod := encVc cfg.c (validCount cfg.c f.len n), dat := packWord cfg.c f.bytes n }

/-- `s` with the beat of frame `f` at cursor `n` emitted and the next state chosen. -/
def beatState (s : State) (f : Frame) (n : Nat) (sofv : Bool) : State :=
  { s with cursor := n, out := emittedBeat s.cfg f n sofv, st := stAfterBeat f n }

theorem beatFlow_none {s : State} {b : Bool} (h : s.cur = none) : beatFlow b s = .emptyRead := by
  simp [beatFlow, h]

theorem beatFlow_some {s : State} {f : Frame} {b : Bool} (h : s.cur = some f) :
    beatFlow b s = .go (s.setOut (formBeat s f b)) := by
  simp [beatFlow, h]

theorem nextStateFlow_none {s : State} (h : s.cur = none) : nextStateFlow s = .emptyRead := by
  simp [nextStateFlow, h]

theorem nextStateFlow_some {s : State} {f : Frame} (h : s.cur = some f) :
    nextStateFlow s =
      .go ((s.setOut { s.out with val := true, eof := isLastBeat f s.cursor }).setSt (stAfterBeat f s.cursor)) := by
  simp [nextStateFlow, h]

theorem reqDecideFlow_none {s : State} (h : s.cur = none) : reqDecideFlow s = .emptyRead := by
  simp [reqDecideFlow, h]

theorem reqDecideFlow_early {s : State} {f : Frame} (h : s.cur = some f) (hp : s.cursor < f.prefetchOffset) :
    reqDecideFlow s = .go (s.setReq false) := by
  simp [reqDecideFlow, h, prefetchDue, Nat.not_le.mpr hp]

theorem reqDecideFlow_due {s : State} {f : Frame} (h : s.cur = some f) (hp : f.prefetchOffset ≤ s.cursor) :
    reqDecideFlow s = (fetchFlow s).andThen (fun s => .go (s.setReq true)) := by
  simp [reqDecideFlow, h, prefetchDue, hp]

theorem advanceFlow_none {s : State} (h : s.cur = none) :
    advanceFlow s = .raised (.invariantFailure .noCurrent) s := by
  simp [advanceFlow, h]

theorem advanceFlow_past {s : State} {f : Frame} (h : s.cur = some f) (hl : f.lastOffset ≤ s.cursor) :
    advanceFlow s = .raised (.invariantFailure .cursorOutOfRange) s := by
  simp [advanceFlow, h, hl]

theorem advanceFlow_some {s : State} {f : Frame} (h : s.cur = some f) (hl : s.cursor < f.lastOffset) :
    advanceFlow s = .go (s.setCursor (advanceCursor s.cfg.c f.len s.cursor)) := by
  simp [advanceFlow, h, Nat.not_le.mpr hl]

/-! ### INIT -/

/-- All INIT can do. -/
theorem initFlow_cases (s : State) :
    (s.pend ≠ none ∧ initFlow s = .raised (.invariantFailure .pendingOccupied) s) ∨
    (s.pend = none ∧ s.nextAnswer = .sourceError ∧ initFlow s = .raised .sourceError s.consumeAnswer) ∨
    (∃ bs, s.pend = none ∧ s.nextAnswer = .frame bs ∧ fitsSlot s.cfg bs.length = true ∧
      initFlow s = .go { s.consumeAnswer with
        pend := some (threshFrame s.cfg.c bs), req := true, out := idleBeatOf s.cfg, st := .requesting }) ∨
    (∃ bs, s.pend = none ∧ s.nextAnswer = .frame bs ∧ fitsSlot s.cfg bs.length = false ∧
      initFlow s = .raised (.frameTooLong bs.length) s.consumeAnswer) := by
  rcases fetchFlow_cases s with ⟨h, e⟩ | ⟨h, ha, e⟩ | ⟨bs, h, ha, hn, e⟩ | ⟨bs, h, ha, hn, e⟩
  · exact .inl ⟨h, by simp [initFlow, e]⟩
  · exact .inr (.inl ⟨h, ha, by simp [initFlow, e]⟩)
  · exact .inr (.inr (.inl ⟨bs, h, ha, hn, by simp [initFlow, e]; rfl⟩))
  · exact .inr (.inr (.inr ⟨bs, h, ha, hn, by simp [initFlow, e]⟩))

/-! ### The common tail of REQ_SWAP and STREAM -/

/-- BEAT, REQ_DECIDE, NEXT_STATE, as REQ_SWAP and STREAM run them. -/
def beatDecideNext (b : Bool) (s : State) : Flow :=
  (beatFlow b s).andThen fun s => (reqDecideFlow s).andThen fun s => nextStateFlow s

theorem beatDecideNext_early {s : State} {f : Frame} {b : Bool} (h : s.cur = some f)
    (hp : s.cursor < f.prefetchOffset) :
    beatDecideNext b s = .go { beatState s f s.cursor b with req := false } := by
  have h1 : (s.setOut (formBeat s f b)).cur = some f := h
  have h2 : ((s.setOut (formBeat s f b)).setReq false).cur = some f := h
  simp only [beatDecideNext, beatFlow_some h, Flow.andThen_go, reqDecideFlow_early h1 hp, nextStateFlow_some h2]
  rfl

/-- With the request due and a frame to be had. -/
theorem beatDecideNext_fetch {s : State} {f : Frame} {b : Bool} {bs : List Byte} (h : s.cur = some f)
    (hp : f.prefetchOffset ≤ s.cursor) (he : s.pend = none) (ha : s.nextAnswer = .frame bs)
    (hn : fitsSlot s.cfg bs.length = true) :
    beatDecideNext b s =
      .go { beatState s.consumeAnswer f s.cursor b with req := true, pend := some (threshFrame s.cfg.c bs) } := by
  have h1 : (s.setOut (formBeat s f b)).cur = some f := h
  have e := fetchFlow_frame (s := s.setOut (formBeat s f b)) he ha hn
  simp only [beatDecideNext, beatFlow_some h, Flow.andThen_go, reqDecideFlow_due h1 hp, e]
  rw [nextStateFlow_some (f := f) (by exact h)]
  rfl

/-- With the request due and no frame to be had: which fault, and what is left of the environment. -/
theorem beatDecideNext_raised {s : State} {f : Frame} {b : Bool} (h : s.cur = some f)
    (hp : f.prefetchOffset ≤ s.cursor) :
    (s.pend ≠ none → ∃ a, beatDecideNext b s = .raised (.invariantFailure .pendingOccupied) a ∧
      a.answers = s.answers ∧ a.calls = s.calls) ∧
    (s.pend = none → s.nextAnswer = .sourceError → ∃ a, beatDecideNext b s = .raised .sourceError a ∧
      a.answers = s.answers.tail ∧ a.calls = s.calls + 1) ∧
    (∀ bs, s.pend = none → s.nextAnswer = .frame bs → fitsSlot s.cfg bs.length = false →
      ∃ a, beatDecideNext b s = .raised (.frameTooLong bs.length) a ∧
      a.answers = s.answers.tail ∧ a.calls = s.calls + 1) := by
  have h1 : (s.setOut (formBeat s f b)).cur = some f := h
  have base : beatDecideNext b s =
      ((fetchFlow (s.setOut (formBeat s f b))).andThen (fun s => .go (s.setReq true))).andThen nextStateFlow := by
    simp only [beatDecideNext, beatFlow_some h, Flow.andThen_go, reqDecideFlow_due h1 hp]
  refine ⟨fun he => ?_, fun he ha => ?_, fun bs he ha hn => ?_⟩
  · obtain ⟨g, hg⟩ := Option.ne_none_iff_exists'.mp he
    exact ⟨s.setOut (formBeat s f b), by rw [base, fetchFlow_occupied (s := s.setOut (formBeat s f b)) (g := g) hg]; rfl, rfl, rfl⟩
  · exact ⟨_, by rw [base, fetchFlow_sourceError (s := s.setOut (formBeat s f b)) he ha]; rfl, rfl, rfl⟩
  · exact ⟨_, by rw [base, fetchFlow_tooLong (s := s.setOut (formBeat s f b)) he ha hn]; rfl, rfl, rfl⟩

/-- All the common tail can do with a current frame. -/
theorem beatDecideNext_cases {s : State} {f : Frame} (b : Bool) (h : s.cur = some f) :
    (s.cursor < f.prefetchOffset ∧ beatDecideNext b s = .go { beatState s f s.cursor b with req := false }) ∨
    (f.prefetchOffset ≤ s.cursor ∧
      ((∃ bs, s.pend = none ∧ s.nextAnswer = .frame bs ∧ fitsSlot s.cfg bs.length = true ∧
        beatDecideNext b s =
          .go { beatState s.consumeAnswer f s.cursor b with
            req := true, pend := some (threshFrame s.cfg.c bs) }) ∨
       (s.pend ≠ none ∧ ∃ a, beatDecideNext b s = .raised (.invariantFailure .pendingOccupied) a ∧
        a.answers = s.answers ∧ a.calls = s.calls) ∨
       (s.pend = none ∧ s.nextAnswer = .sourceError ∧ ∃ a, beatDecideNext b s = .raised .sourceError a ∧
        a.answers = s.answers.tail ∧ a.calls = s.calls + 1) ∨
       (∃ bs, s.pend = none ∧ s.nextAnswer = .frame bs ∧ fitsSlot s.cfg bs.length = false ∧
        ∃ a, beatDecideNext b s = .raised (.frameTooLong bs.length) a ∧
        a.answers = s.answers.tail ∧ a.calls = s.calls + 1))) := by
  by_cases hp : s.cursor < f.prefetchOffset
  · exact .inl ⟨hp, beatDecideNext_early h hp⟩
  · have hp := Nat.not_lt.mp hp
    obtain ⟨r1, r2, r3⟩ := beatDecideNext_raised (b := b) h hp
    refine .inr ⟨hp, ?_⟩
    by_cases he : s.pend = none
    · cases ha : s.nextAnswer with
      | sourceError => exact .inr (.inr (.inl ⟨he, rfl, r2 he ha⟩))
      | frame bs =>
        cases hn : fitsSlot s.cfg bs.length with
        | true => exact .inl ⟨bs, he, rfl, hn, beatDecideNext_fetch h hp he ha hn⟩
        | false => exact .inr (.inr (.inr ⟨bs, he, rfl, hn, r3 bs he ha hn⟩))
    · exact .inr (.inl ⟨he, r1 he⟩)

/-! ### REQ_SWAP -/

theorem reqSwapFlow_none {s : State} (h : s.pend = none) :
    reqSwapFlow s = .raised (.invariantFailure .pendingEmpty) s := by
  simp [reqSwapFlow, swapFlow_none h]

/-- `s` with frame `f` made current and the cursor at its start. -/
def swapState (s : State) (f : Frame) : State :=
  { s with cur := some f, pend := none, cursor := 0, bits := bitsHint f.len }

/-- REQ_SWAP with a pending frame: the slots move, the cursor restarts, then the common tail. -/
theorem reqSwapFlow_some {s : State} {f : Frame} (h : s.pend = some f) :
    reqSwapFlow s = beatDecideNext true (swapState s f) := by
  simp only [reqSwapFlow, swapFlow_some h, Flow.andThen_go]
  rfl

/-! ### STREAM -/

theorem streamFlow_none {s : State} (h : s.cur = none) :
    streamFlow s = .raised (.invariantFailure .noCurrent) s := by
  simp [streamFlow, advanceFlow_none h]

theorem streamFlow_past {s : State} {f : Frame} (h : s.cur = some f) (hl : f.lastOffset ≤ s.cursor) :
    streamFlow s = .raised (.invariantFailure .cursorOutOfRange) s := by
  simp [streamFlow, advanceFlow_past h hl]

theorem streamFlow_some {s : State} {f : Frame} (h : s.cur = some f) (hl : s.cursor < f.lastOffset) :
    streamFlow s = beatDecideNext false (s.setCursor (advanceCursor s.cfg.c f.len s.cursor)) := by
  simp only [streamFlow, advanceFlow_some h hl, Flow.andThen_go]
  rfl

/-! ### DRAIN -/

theorem drainFlow_none {s : State} (h : s.cur = none) :
    drainFlow s = .raised (.invariantFailure .noCurrent) s := by
  simp [drainFlow, advanceFlow_none h]

theorem drainFlow_past {s : State} {f : Frame} (h : s.cur = some f) (hl : f.lastOffset ≤ s.cursor) :
    drainFlow s = .raised (.invariantFailure .cursorOutOfRange) s := by
  simp [drainFlow, advanceFlow_past h hl]

theorem drainFlow_some {s : State} {f : Frame} (h : s.cur = some f) (hl : s.cursor < f.lastOffset) :
    drainFlow s = .go (beatState s f (advanceCursor s.cfg.c f.len s.cursor) false) := by
  simp only [drainFlow, advanceFlow_some h hl, Flow.andThen_go]
  rw [beatFlow_some (f := f) (by exact h)]
  simp only [Flow.andThen_go]
  rw [nextStateFlow_some (f := f) (by exact h)]
  rfl

end Sys2Proof.Machine
end

