-- ==== Sys2Proof/Laws/Step.lean ====
section
/-!
SUPPORT. What a step can do, once: which operation an edge selects and what its outcome is.
-/

namespace Sys2Proof.Machine

theorem decodeCtl_reset (flt : Bool) (sel : BitVec 4) : decodeCtl (ctlWordOf true flt sel) = .reset flt sel := by
  revert flt sel; decide

theorem decodeCtl_faulted (sel : BitVec 4) : decodeCtl (ctlWordOf false true sel) = .faulted sel := by
  revert sel; decide

theorem decodeCtl_idle (ack : Bool) (st : BitVec 2) :
    decodeCtl (ctlWordOf false false (selWord false ack st)) = .idle ack st := by
  revert ack st; decide

theorem decodeCtl_active (ack : Bool) (st : BitVec 2) :
    decodeCtl (ctlWordOf false false (selWord true ack st)) =
      if st = 0b00#2 then .init ack
      else if st = 0b01#2 then (if ack then .reqSwap else .reqHold)
      else if st = 0b10#2 then .stream ack
      else .drain ack := by
  revert ack st; decide

/-- The operation a recognised state's arm is. -/
def armOf (st : St) (ack : Bool) : Instr :=
  match st with
  | .init => .init ack
  | .requesting => if ack then .reqSwap else .reqHold
  | .streaming => .stream ack
  | .draining | .unused _ => .drain ack

theorem selected_reset {s : State} (h : s.edgeIn.rst = true) :
    s.selected = .op (.reset s.fault.isSome (s.selWordAt s.edgeIn)) := by
  simp [State.selected, State.selectAt, State.activeAt, State.ctlWordAt, h, decodeCtl_reset]

theorem selected_faulted {s : State} (h : s.edgeIn.rst = false) (hf : s.fault ≠ none) :
    s.selected = .op (.faulted (s.selWordAt s.edgeIn)) := by
  obtain ⟨f, hf⟩ := Option.ne_none_iff_exists'.mp hf
  simp [State.selected, State.selectAt, State.activeAt, State.ctlWordAt, h, hf, decodeCtl_faulted]

theorem selected_idle {s : State} (h : s.edgeIn.rst = false) (hf : s.fault = none) (ha : s.edgeIn.avail = false) :
    s.selected = .op (.idle s.edgeIn.ack s.st.code) := by
  simp [State.selected, State.selectAt, State.activeAt, State.ctlWordAt, State.selWordAt, h, hf, ha, decodeCtl_idle]

theorem selected_active {s : State} (h : s.edgeIn.rst = false) (hf : s.fault = none) (ha : s.edgeIn.avail = true) :
    s.selected = if s.st.recognised then .op (armOf s.st s.edgeIn.ack) else .unrecognised := by
  cases hs : s.st <;>
    simp [State.selected, State.selectAt, State.activeAt, State.ctlWordAt, State.selWordAt, h, hf, ha, hs,
      St.recognised, St.code, decodeCtl_active, armOf]

/-- All a step can do. -/
theorem step_cases (s : State) :
    (s.edgeIn.rst = true ∧ step s = .next (resetState s.tick)) ∨
    (s.edgeIn.rst = false ∧ s.fault ≠ none ∧ step s = .next s.tick) ∨
    (s.edgeIn.rst = false ∧ s.fault = none ∧ s.edgeIn.avail = false ∧ step s = .next s.tick) ∨
    (s.edgeIn.rst = false ∧ s.fault = none ∧ s.edgeIn.avail = true ∧
      ((s.st = .init ∧ step s = commit s.tick (initFlow s.tick)) ∨
       (s.st = .requesting ∧ s.edgeIn.ack = false ∧ step s = .next (s.tick.setOut (idleBeatOf s.cfg))) ∨
       (s.st = .requesting ∧ s.edgeIn.ack = true ∧ step s = commit s.tick (reqSwapFlow s.tick)) ∨
       (s.st = .streaming ∧ step s = commit s.tick (streamFlow s.tick)) ∨
       (s.st = .draining ∧ step s = commit s.tick (drainFlow s.tick)) ∨
       (∃ n, s.st = .unused n ∧ step s = .next (raiseUnrecognised s.tick)))) := by
  cases h : s.edgeIn.rst with
  | true => exact .inl ⟨rfl, by simp [step, selected_reset h, exec, execReset]⟩
  | false =>
    refine .inr ?_
    by_cases hf : s.fault = none
    · refine .inr ?_
      cases ha : s.edgeIn.avail with
      | false => exact .inl ⟨rfl, hf, rfl, by simp [step, selected_idle h hf ha, exec, execIdle]⟩
      | true =>
        refine .inr ⟨rfl, hf, rfl, ?_⟩
        have hs := selected_active h hf ha
        cases hst : s.st with
        | init => exact .inl ⟨rfl, by simp [step, hs, hst, St.recognised, armOf, exec, execInit]⟩
        | requesting =>
          cases hk : s.edgeIn.ack with
          | false =>
            exact .inr (.inl ⟨rfl, rfl, by
              simp [step, hs, hst, hk, St.recognised, armOf, exec, execReqHold, idleBeatFlow]⟩)
          | true =>
            exact .inr (.inr (.inl ⟨rfl, rfl, by
              simp [step, hs, hst, hk, St.recognised, armOf, exec, execReqSwap]⟩))
        | streaming =>
          exact .inr (.inr (.inr (.inl ⟨rfl, by simp [step, hs, hst, St.recognised, armOf, exec, execStream]⟩)))
        | draining =>
          exact .inr (.inr (.inr (.inr (.inl ⟨rfl, by
            simp [step, hs, hst, St.recognised, armOf, exec, execDrain]⟩))))
        | unused n =>
          exact .inr (.inr (.inr (.inr (.inr ⟨n, rfl, by simp [step, hs, hst, St.recognised]⟩))))
    · exact .inl ⟨rfl, hf, by simp [step, selected_faulted h hf, exec, execFaulted]⟩

end Sys2Proof.Machine
end

