-- ==== Sys2Proof/Laws/Run.lean ====
section
/-!
SUPPORT. What a run shows: one step of it, its length, an invariant of steps carried to its final state, and that the
state in which a run finds the block does not matter.
-/

namespace Sys2Proof.Machine

/-! ### The observation, a step at a time -/

@[simp] theorem observation_zero (s : State) : observation 0 s = { steps := [], final := s } := rfl

theorem observation_succ {s t : State} (k : Nat) (h : step s = .next t) :
    observation (k + 1) s =
      { steps := { beat := emitted s, req := t.req } :: (observation k t).steps, final := (observation k t).final } := by
  simp only [observation, h]

@[simp] theorem observe_zero (s : State) : observe 0 s = [] := rfl

/-- A step that emits a beat adds it, with `req` after it, in front. -/
theorem observe_succ_some {s t : State} {b : Beat} (k : Nat) (h : step s = .next t) (hb : emitted s = some b) :
    observe (k + 1) s = (b, t.req) :: observe k t := by
  simp [observe, observation_succ k h, hb, StepView.beatWithReq]

/-- A step that emits none adds nothing. -/
theorem observe_succ_none {s t : State} (k : Nat) (h : step s = .next t) (hb : emitted s = none) :
    observe (k + 1) s = observe k t := by
  simp only [observe, observation_succ k h, hb]
  exact List.filterMap_cons_none rfl

/-- A property that every step keeps holds of the final state. -/
theorem observation_final_of_kept {P : State → Prop} (keep : ∀ s t, P s → step s = .next t → P t) (k : Nat) :
    ∀ s, P s → P (observation k s).final := by
  induction k with
  | zero => exact fun _ h => h
  | succ k ih =>
    intro s hs
    simp only [observation]
    split
    · next t h => exact ih t (keep s t hs h)
    · exact hs

/-! ### Runs -/

/-- The first edge of a run resets the block. -/
theorem Run.first_step {r : Run} (h : r.startsWithReset = true) (before : State) :
    step (r.load before) = .next (resetState (r.load before).tick) := by
  have hr : (r.load before).edgeIn.rst = true := by
    unfold Run.startsWithReset at h
    split at h
    · next e es he => simpa [Run.load, State.edgeIn, he] using h
    · cases h
  rcases step_cases (r.load before) with ⟨-, e⟩ | ⟨h0, -⟩ | ⟨h0, -⟩ | ⟨h0, -⟩
  · exact e
  all_goals exact absurd (hr.symm.trans h0) (by decide)

/-- A reset edge emits no beat. -/
theorem emitted_of_rst {s : State} (h : s.edgeIn.rst = true) : emitted s = none := by
  unfold emitted
  split
  · simp [State.selectsBeat, selected_reset h, emits]
  · rfl

/-- After its first edge a run no longer depends on the state in which it found the block. -/
theorem Run.reset_before (r : Run) (s t : State) : resetState (r.load s).tick = resetState (r.load t).tick := rfl

/-- What a run shows does not depend on the state in which it finds the block. -/
theorem Run.observation_before {r : Run} (h : r.startsWithReset = true) (s t : State) :
    r.observation s = r.observation t := by
  obtain ⟨cfg, edges, answers⟩ := r
  cases edges with
  | nil => cases h
  | cons e es =>
    have hs := Run.first_step h s
    have ht := Run.first_step h t
    simp only [Run.observation, List.length_cons, observation_succ _ hs, observation_succ _ ht,
      Run.reset_before _ s t, emitted_of_rst (s := Run.load ⟨cfg, e :: es, answers⟩ s) h,
      emitted_of_rst (s := Run.load ⟨cfg, e :: es, answers⟩ t) h]

/-- A property that every reset leaves and every step keeps holds of the final state of every run. -/
theorem Run.final_of_kept {P : State → Prop} (start : ∀ s, P (resetState s))
    (keep : ∀ s t, P s → step s = .next t → P t) {r : Run} (h : r.startsWithReset = true) (before : State) :
    P (r.observation before).final := by
  obtain ⟨cfg, edges, answers⟩ := r
  cases edges with
  | nil => cases h
  | cons e es =>
    simp only [Run.observation, List.length_cons, observation_succ _ (Run.first_step h before)]
    exact observation_final_of_kept keep _ _ (start _)

end Sys2Proof.Machine
end

