-- ==== Sys2Proof/Tests/Slice0.lean ====
section
/-!
SUPPORT. The model's own tests. Expected values come from spec/95_test_vectors.md (the ids V, F, P and the section
numbers are that file's) or are worked out by hand from the rule named. Each test is about one operation or one
edge. The last part shows, for each statement with hypotheses, that concrete states meet them.
-/

namespace Sys2Proof.Tests

open Sys2Proof Sys2Proof.Machine

-- A data word has 512 bits; its operations name `2 ^ 512`.
set_option exponentiation.threshold 1024

/-! ### Small states -/

/-- An edge without reset. -/
def edge (avail ack : Bool) : Edge := { rst := false, avail := avail, ack := ack }

/-- An edge with reset. -/
def rstEdge : Edge := { rst := true, avail := true, ack := true }

def bytesA : List Byte := [0x11, 0x22, 0x33, 0x44, 0x55]
def bytesB : List Byte := [0xAA, 0xBB]
def bytesC : List Byte := [1, 2, 3, 4, 5, 6, 7, 8, 9]

/-- `A = Frame(5, 1, 0)` for `W = 4` (section 4). -/
def frameA : Frame := { bytes := bytesA, lastOffset := 1, prefetchOffset := 0 }

/-- `B = Frame(2, 0, 0)`. -/
def frameB : Frame := { bytes := bytesB, lastOffset := 0, prefetchOffset := 0 }

/-- `C = Frame(9, 5, 1)`. -/
def frameC : Frame := { bytes := bytesC, lastOffset := 5, prefetchOffset := 1 }

/-- Thirteen bytes: `Frame(13, 9, 5)`, section 7. -/
def frameD : Frame := { bytes := bytesC ++ [10, 11, 12, 13], lastOffset := 9, prefetchOffset := 5 }

/-- The empty frame. -/
def frameE : Frame := { bytes := [], lastOffset := 0, prefetchOffset := 0 }

/-- A beat with `TAG = 0`. -/
def beatOf (val sof eof : Bool) (mod : ModField) (dat : Dat) : Beat :=
  { usr := 0, err := false, val := val, sof := sof, eof := eof, mod := mod, dat := dat }

/-- The idle beat. -/
def idle : Beat := beatOf false false false 0 0

/-- A reset block of class `c`, with a source that answers `A`. -/
def blockOf (c : WidthClass) : State :=
  { State.reset with cfg := { defaultConfig with c := c }, answers := [.frame bytesA] }

/-- INIT, the source to answer `B`. -/
def sInit : State := { State.reset with stimulus := [edge true false], answers := [.frame bytesB] }

/-- REQUESTING before the first swap (V5). -/
def sFirst : State :=
  { State.reset with
    st := .requesting, pend := some frameA, req := true
    stimulus := [edge true false], answers := [.frame bytesB] }

/-- REQUESTING after the last beat of `A` (V7, V15). -/
def sReq : State :=
  { State.reset with
    st := .requesting, cur := some frameA, pend := some frameB, cursor := 4, req := true
    out := beatOf true false true 1 0x55000000, bits := 40
    stimulus := [edge true true], answers := [.frame bytesC] }

/-- REQUESTING with a pending frame whose prefetch is not due at once (V8). -/
def sReqLong : State :=
  { State.reset with
    st := .requesting, cur := some frameB, pend := some frameC, req := true, bits := 16
    stimulus := [edge true true] }

/-- STREAMING (V11). -/
def sStream : State :=
  { State.reset with
    st := .streaming, cur := some frameC, bits := 72, out := beatOf true true false 0 0x01020304
    stimulus := [edge true false], answers := [.frame bytesB] }

/-- STREAMING with one more beat below the prefetch threshold. -/
def sStreamEarly : State := { sStream with cur := some frameD, bits := 104 }

/-- DRAINING (V13). -/
def sDrain : State :=
  { State.reset with
    st := .draining, cur := some frameA, pend := some frameB, req := true, bits := 40
    out := beatOf true true false 0 0x11223344, stimulus := [edge true true], answers := [.frame bytesC] }

/-- A block with a recorded fault (V16, V17). -/
def sFaulted : State := { sReq with fault := some .sourceError }

/-- An unused state code (V18, V19). -/
def sUnused : State := { State.reset with st := .unused 4, stimulus := [edge true false] }

/-- `s` with a slot capacity of `n` bytes. -/
def capped (n : Nat) (s : State) : State := { s with cfg := { s.cfg with nmax := some n } }

/-- `s` with a source that answers an error. -/
def failing (s : State) : State := { s with answers := [.sourceError] }

/-- The next state, if there is one. -/
def after (o : Host.Outcome State Fault Refusal) : Option State :=
  match o with
  | .next t => some t
  | _ => none

/-! ### Well-formedness -/

/-- 00_scope R7: `NMAX + W = 12` needs four cursor bits, `8 * NMAX = 64` seven hint bits. -/
theorem test_config_wellFormed :
    ({ defaultConfig with nmax := some 8, cursorW := some 4, bitsW := some 7 } : Config).wellFormed = true := by decide

theorem test_config_short_cursor_refused :
    ({ defaultConfig with nmax := some 8, cursorW := some 3, bitsW := some 7 } : Config).wellFormed = false := by decide

theorem test_config_short_bits_refused :
    ({ defaultConfig with nmax := some 8, cursorW := some 4, bitsW := some 6 } : Config).wellFormed = false := by decide

theorem test_config_finite_cursor_for_unbounded_refused :
    ({ defaultConfig with nmax := none, cursorW := some 32, bitsW := none } : Config).wellFormed = false := by decide

theorem test_config_finite_bits_for_unbounded_refused :
    ({ defaultConfig with nmax := none, cursorW := none, bitsW := some 32 } : Config).wellFormed = false := by decide

theorem test_instr_of_own_class : (Instr.encVcW4 3).wellFormed .w4 = true ∧ Instr.fetch.wellFormed .w4 = true := by decide

theorem test_instr_of_other_class_refused :
    (Instr.encVcW8 3).wellFormed .w4 = false ∧ (Instr.pack .w1 [] 0).wellFormed .w2 = false := by decide

theorem test_slot_wellFormed : Memory.wf sReq = true := by decide

theorem test_slot_wrong_last_offset_refused : slotWf defaultConfig (some { frameA with lastOffset := 2 }) = false := by
  decide

theorem test_slot_wrong_prefetch_offset_refused :
    slotWf defaultConfig (some { frameA with prefetchOffset := 1 }) = false := by decide

theorem test_slot_over_capacity_refused : Memory.wf (capped 4 sReq) = false := by decide

theorem test_beat_mod_above_width_refused : beatFits .w4 (beatOf true false true 4 0) = false := by decide

theorem test_beat_dat_above_width_refused : beatFits .w1 (beatOf true false true 0 0x100) = false := by decide

/-! ### Decoding: words written out from opcode_table.json -/

/-- `sel = 0---`. -/
theorem test_decode_idle :
    decode .control [0b00000101] .absent = .ok (.idle true 0b01, []) ∧
    decode .control [0b00000010] .absent = .ok (.idle false 0b10, []) := by
  and_intros <;> rfl

/-- `sel = 1-00`. -/
theorem test_decode_init :
    decode .control [0b00001000] .absent = .ok (.init false, []) ∧
    decode .control [0b00001100] .absent = .ok (.init true, []) := by
  and_intros <;> rfl

/-- `sel = 1001` and `1101`. -/
theorem test_decode_requesting :
    decode .control [0b00001001] .absent = .ok (.reqHold, []) ∧
    decode .control [0b00001101] .absent = .ok (.reqSwap, []) := by
  and_intros <;> rfl

/-- `sel = 1-10` and `1-11`. -/
theorem test_decode_stream_drain :
    decode .control [0b00001010] .absent = .ok (.stream false, []) ∧
    decode .control [0b00001111] .absent = .ok (.drain true, []) := by
  and_intros <;> rfl

/-- `ctl = 1-----` and `01----`. -/
theorem test_decode_reset_faulted :
    decode .control [0b00111101, 0x7F] .absent = .ok (.reset true 0b1101, [0x7F]) ∧
    decode .control [0b00011101] .absent = .ok (.faulted 0b1101, []) := by
  and_intros <;> rfl

/-- Class codes 000 to 110. -/
theorem test_decode_pack :
    decode .pack [0b011] (.slice [1, 2] 1) = .ok (.pack .w8 [1, 2] 1, []) ∧
    decode .pack [0b110] (.slice [] 0) = .ok (.pack .w64 [] 0, []) := by
  and_intros <;> rfl

theorem test_decode_enc_vc :
    decode .encVc [0b000] (.count 1) = .ok (.encVcW1 1, []) ∧
    decode .encVc [0b001] (.count 2) = .ok (.encVcW2 2, []) ∧
    decode .encVc [0b010] (.count 4) = .ok (.encVcW4 4, []) ∧
    decode .encVc [0b011] (.count 7) = .ok (.encVcW8 7, []) ∧
    decode .encVc [0b100] (.count 15) = .ok (.encVcW16 15, []) ∧
    decode .encVc [0b101] (.count 0) = .ok (.encVcW32 0, []) ∧
    decode .encVc [0b110] (.count 64) = .ok (.encVcW64 64, []) := by
  and_intros <;> rfl

theorem test_decode_dec_vc :
    decode .decVc [0b000] (.modField 0) = .ok (.decVcW1, []) ∧
    decode .decVc [0b001] (.modField 1) = .ok (.decVcW2 1, []) ∧
    decode .decVc [0b010] (.modField 3) = .ok (.decVcW4 3, []) ∧
    decode .decVc [0b011] (.modField 7) = .ok (.decVcW8 7, []) ∧
    decode .decVc [0b100] (.modField 8) = .ok (.decVcW16 8, []) ∧
    decode .decVc [0b101] (.modField 31) = .ok (.decVcW32 31, []) ∧
    decode .decVc [0b110] (.modField 63) = .ok (.decVcW64 63, []) := by
  and_intros <;> rfl

/-- The micro rows have no code byte. -/
theorem test_decode_micro :
    decode .thresh [] (.bytes [7]) = .ok (.thresh [7], []) ∧ decode .fetch [] .absent = .ok (.fetch, []) ∧
    decode .swap [] .absent = .ok (.swap, []) ∧ decode .beat [] (.flag true) = .ok (.beat true, []) ∧
    decode .idleBeat [] .absent = .ok (.idleBeat, []) ∧ decode .reqDecide [] .absent = .ok (.reqDecide, []) ∧
    decode .nextState [] .absent = .ok (.nextState, []) := by
  and_intros <;> rfl

/-- Every way to be no operation. -/
theorem test_decode_refuses_by_name :
    decode .control [] .absent = .error .missingByte ∧ decode .pack [] (.slice [] 0) = .error .missingByte ∧
    decode .control [0b01000000] .absent = .error .controlBitsAboveWord ∧
    decode .encVc [0b00001000] (.count 0) = .error .classBitsAboveCode ∧
    decode .decVc [0b111] (.modField 0) = .error .reservedClass ∧
    decode .encVc [0b010] (.count 5) = .error .countOutOfDomain ∧
    decode .decVc [0b000] (.modField 1) = .error .fieldOutOfDomain ∧
    decode .control [0] (.flag true) = .error .operandMismatch := by
  and_intros <;> rfl

/-- R78 with the programs' selector words: P1 e2 is 0xD in REQUESTING, P2 e5 is 0x7 in DRAINING. -/
theorem test_selector_words_of_programs :
    sReq.selWordAt (edge true true) = 0xD ∧ sDrain.selWordAt (edge false true) = 0x7 ∧
    (encode .reqSwap).code = [0x0D] ∧ (encode (.idle true 0b11)).code = [0x07] := by decide

/-- The host's two questions, on words of the control port. -/
theorem test_fetch_word_runs_as_first_operation :
    decodeTableWord 8 0x8 = some (.init false) ∧
    (State.reset.withFetchWord 8 0x8).selected = .op (.init false) ∧
    (State.reset.withFetchWord 8 0xD).selected = .op .reqSwap ∧
    (State.reset.withFetchWord 8 0x1B).selected = .op (.faulted 0xB) ∧
    (State.reset.withFetchWord 8 0x3F).selected = .op (.reset true 0xF) := by decide

/-! ### BeatCodec (section 3) -/

/-- What an operation invoked by itself returns. -/
def tapAfter (i : Instr) : Option Tap := (after (exec i State.reset)).map State.tap

theorem test_pack_past_end_is_zero : tapAfter (.pack .w4 bytesA 4) = some (.dat .w4 0x55000000) := by decide

theorem test_pack_unaligned : tapAfter (.pack .w4 bytesA 2) = some (.dat .w4 0x33445500) := by decide

theorem test_encVcW1 : tapAfter (.encVcW1 1) = some (.modField .w1 0) := by decide

theorem test_encVcW2 :
    tapAfter (.encVcW2 1) = some (.modField .w2 1) ∧ tapAfter (.encVcW2 2) = some (.modField .w2 0) := by decide

theorem test_encVcW4 :
    tapAfter (.encVcW4 3) = some (.modField .w4 0b11) ∧ tapAfter (.encVcW4 4) = some (.modField .w4 0) := by decide

theorem test_encVcW8 :
    tapAfter (.encVcW8 7) = some (.modField .w8 0b111) ∧ tapAfter (.encVcW8 8) = some (.modField .w8 0) := by decide

theorem test_encVcW16 :
    tapAfter (.encVcW16 15) = some (.modField .w16 0b1111) ∧ tapAfter (.encVcW16 16) = some (.modField .w16 0) := by
  decide

theorem test_encVcW32 :
    tapAfter (.encVcW32 31) = some (.modField .w32 0b11111) ∧ tapAfter (.encVcW32 32) = some (.modField .w32 0) := by
  decide

theorem test_encVcW64 :
    tapAfter (.encVcW64 63) = some (.modField .w64 0b111111) ∧ tapAfter (.encVcW64 64) = some (.modField .w64 0) := by
  decide

theorem test_decVcW1 : tapAfter .decVcW1 = some (.count 1) := by decide

theorem test_decVcW2 : tapAfter (.decVcW2 0) = some (.count 2) ∧ tapAfter (.decVcW2 1) = some (.count 1) := by decide

theorem test_decVcW4 : tapAfter (.decVcW4 0) = some (.count 4) ∧ tapAfter (.decVcW4 3) = some (.count 3) := by decide

theorem test_decVcW8 : tapAfter (.decVcW8 0) = some (.count 8) ∧ tapAfter (.decVcW8 7) = some (.count 7) := by decide

theorem test_decVcW16 : tapAfter (.decVcW16 0) = some (.count 16) ∧ tapAfter (.decVcW16 15) = some (.count 15) := by
  decide

theorem test_decVcW32 : tapAfter (.decVcW32 0) = some (.count 32) ∧ tapAfter (.decVcW32 31) = some (.count 31) := by
  decide

theorem test_decVcW64 : tapAfter (.decVcW64 0) = some (.count 64) ∧ tapAfter (.decVcW64 63) = some (.count 63) := by
  decide

/-! ### FrameBuffer (section 2) -/

/-- Rows `N = 9` and `N = 5` for `W = 4`. -/
theorem test_thresh :
    tapAfter (.thresh bytesC) = some (.frame frameC) ∧ tapAfter (.thresh bytesA) = some (.frame frameA) := by decide

/-- F1. -/
theorem test_fetch_fills_pending :
    (after (exec .fetch sInit)).map (fun t => (t.pend, t.calls)) = some (some frameB, 1) := by decide

/-- F4. -/
theorem test_fetch_frame_too_long :
    (after (exec .fetch (capped 4 (blockOf .w4)))).map (fun t => (t.fault, t.pend, t.answers)) =
      some (some (.frameTooLong 5), none, []) := by decide

/-- F5. -/
theorem test_swap_moves_pending :
    (after (exec .swap sReq)).map (fun t => (t.cur, t.pend)) = some (some frameB, none) := by decide

/-- F6. -/
theorem test_swap_empty :
    (after (exec .swap sStream)).map (fun t => (t.fault, t.cur)) =
      some (some (.invariantFailure .pendingEmpty), some frameC) := by decide

/-! ### FrameStreamer (section 4) -/

/-- The sub-operation vector `BEAT(0)` with `cur = A`, `cursor = 4`. -/
theorem test_beat : (after (exec (.beat false) { sReq with out := idle })).map State.out =
    some (beatOf false false false 1 0x55000000) := by decide

/-- The sub-operation vector `BEAT(1)` of the empty frame. -/
theorem test_beat_empty_frame :
    (after (exec (.beat true) { sReq with cur := some frameE, cursor := 0, out := idle })).map State.out =
      some (beatOf false true false 0 0) := by decide

/-- 42_framestreamer R153. -/
theorem test_idle_beat : (after (exec .idleBeat sReq)).map State.out = some idle := by decide

/-- `cursor = pref` fetches. -/
theorem test_req_decide_equal_fetches :
    (after (exec .reqDecide { sStream with cursor := 1 })).map (fun t => (t.req, t.pend)) =
      some (true, some frameB) := by decide

/-- `cursor = pref - 1` clears `req`. -/
theorem test_req_decide_below_clears :
    (after (exec .reqDecide { sStream with req := true })).map (fun t => (t.req, t.pend)) = some (false, none) := by
  decide

/-- `cursor = last = pref = 0`: the `eof` test wins. -/
theorem test_next_state_eof_first :
    (after (exec .nextState { sReq with cur := some frameB, cursor := 0 })).map (fun t => (t.st, t.out.eof)) =
      some (.requesting, true) := by decide

/-- Between the thresholds of `C`. -/
theorem test_next_state_draining :
    (after (exec .nextState { sStream with cursor := 4 })).map (fun t => (t.st, t.out.eof, t.out.val)) =
      some (.draining, false, true) := by decide

/-- V1. -/
theorem test_init :
    (after (step sInit)).map (fun t => (t.st, t.pend, t.req, t.out)) =
      some (.requesting, some frameB, true, idle) := by decide

/-- V3: no call is made. -/
theorem test_init_occupied :
    (after (step { sInit with pend := some frameB })).map (fun t => (t.fault, t.st, t.calls)) =
      some (some (.invariantFailure .pendingOccupied), .init, 0) := by decide

/-- V5. -/
theorem test_reqHold :
    (after (step sFirst)).map (fun t => (t.st, t.pend, t.req, t.out)) =
      some (.requesting, some frameA, true, idle) := by decide

/-- V7. -/
theorem test_reqSwap_fetches_on_first_beat :
    after (step sReq) =
      some { sReq.tick with
        cur := some frameB, pend := some frameC, cursor := 0, bits := 16, out := beatOf true true true 2 0xAABB0000
        answers := [], calls := 1 } := by decide

/-- V8. -/
theorem test_reqSwap_long_frame :
    after (step sReqLong) =
      some { sReqLong.tick with
        cur := some frameC, pend := none, bits := 72, out := beatOf true true false 0 0x01020304, req := false
        st := .streaming } := by decide

/-- V11. -/
theorem test_stream :
    (after (step sStream)).map (fun t => (t.cursor, t.out, t.pend, t.req, t.st)) =
      some (4, beatOf true false false 0 0x05060708, some frameB, true, .draining) := by decide

/-- V12: the fault leaves the state at the step's start. -/
theorem test_stream_source_error :
    after (step (failing sStream)) =
      some { sStream with stimulus := [], edges := 1, answers := [], calls := 1, fault := some .sourceError } := by
  decide

/-- V13. -/
theorem test_drain :
    (after (step sDrain)).map (fun t => (t.cursor, t.out, t.st, t.req, t.pend)) =
      some (4, beatOf true false true 1 0x55000000, .requesting, true, some frameB) := by decide

/-- V14. -/
theorem test_drain_cursor_out_of_range :
    (after (step { sDrain with cur := some frameC, cursor := 8 })).map (fun t => (t.fault, t.cursor)) =
      some (some (.invariantFailure .cursorOutOfRange), 8) := by decide

/-- V15: everything is held, and nothing is emitted. -/
theorem test_idle :
    after (step (sReq.withEdges [edge false true])) = some (sReq.withEdges [edge false true]).tick ∧
    emitted (sReq.withEdges [edge false true]) = none := by decide

/-- V16. -/
theorem test_reset :
    after (step (sFaulted.withEdges [rstEdge])) =
      some { State.reset with edges := 1, answers := [.frame bytesC] } := by decide

/-- V17. -/
theorem test_faulted : after (step sFaulted) = some sFaulted.tick := by decide

/-- V18 and V19. -/
theorem test_unrecognised_state :
    (after (step sUnused)).map State.fault = some (some (.invariantFailure .unrecognisedState)) ∧
    after (step (sUnused.withEdges [edge false false])) = some (sUnused.withEdges [edge false false]).tick := by decide

/-! ### The observation of a run (section 5) -/

/-- P2 up to its edge e4. -/
def runP2 : Run :=
  { cfg := { defaultConfig with c := .w2 }
    edges := [rstEdge, edge false false, edge true false, edge true false, edge true true]
    answers := [.frame [0xDE, 0xAD, 0xBE], .frame [1, 2, 3, 4], .frame [0x7F]] }

/-- RESET, IDLE, INIT, REQ_HOLD and REQ_SWAP: `req` after each, one beat, and the state at e4. -/
theorem test_observation :
    (runP2.observation sFaulted).reqs = [false, false, true, true, true] ∧
    (runP2.observation sFaulted).beats = [beatOf true true false 0 0xDEAD] ∧
    (runP2.observation sFaulted).final.st = .draining ∧ (runP2.observation sFaulted).faultFree = true := by decide

/-- What each step of it shows. -/
theorem test_observation_steps :
    (runP2.observation State.reset).steps.map StepView.beat =
      [none, none, none, none, some (beatOf true true false 0 0xDEAD)] := by decide

theorem test_run_without_reset_refused :
    runP2.startsWithReset = true ∧ { runP2 with edges := [edge true true] }.startsWithReset = false ∧
    { runP2 with edges := [] }.startsWithReset = false := by decide

/-! ### Outputs (section 6) -/

theorem test_wire_word_w1 : wireWord .w1 (beatOf true true false 0 0x41) = 0x641 := by decide

theorem test_wire_word_w4 : wireWord .w4 (beatOf true false true 1 0x55000000) = 0x1555000000 := by decide

theorem test_wire_word_tag :
    wireWord .w4 { beatOf true true true 2 0xAABB0000 with usr := 0xDEADBEEF } = 0x37AB6FBBDEAABB0000 := by decide

/-- The dump of the P1 e3 beat in the spec's example format. -/
theorem test_text_dump :
    textDump defaultConfig (beatOf true false true 1 0x55000000) =
      "usr = 0x0\nerr = 0x0\nval = 0x1\nsof = 0x0\neof = 0x1\nmod = 0x1\ndat = 0x55000000".toList := by
  decide

/-- The ports: `mod` is absent for `W = 1` (30_encoding R72), the fault code is R84's. -/
theorem test_ports :
    (blockOf .w1).outputs.mod = none ∧ sReq.outputs.mod = some 1 ∧ sFaulted.outputs.fault = 0b01 ∧
    srcCall sInit { sInit with calls := 1 } = some (0, []) := by decide

/-! ### Witnesses: states that meet the hypotheses of the statements, a line for each clause -/

theorem inv_sInit : sInit.Inv := ⟨rfl, ⟨rfl, rfl, rfl, rfl⟩, rfl, nofun⟩

theorem inv_sFirst : sFirst.Inv :=
  ⟨by decide, ⟨by decide, rfl, fun _ => rfl, nofun⟩, rfl, nofun⟩

theorem inv_sReq : sReq.Inv :=
  ⟨by decide, ⟨by decide, rfl, nofun, fun f h => by cases h; decide⟩, rfl,
    fun f h => by cases h; decide⟩

theorem inv_sReqLong : sReqLong.Inv :=
  ⟨by decide, ⟨by decide, rfl, nofun, fun f h => by cases h; decide⟩, rfl,
    fun f h => by cases h; decide⟩

theorem inv_sStream : sStream.Inv :=
  ⟨by decide, ⟨rfl, rfl, frameC, rfl, by decide⟩, rfl, fun f h => by cases h; decide⟩

theorem inv_sStreamEarly : sStreamEarly.Inv :=
  ⟨by decide, ⟨rfl, rfl, frameD, rfl, by decide⟩, rfl, fun f h => by cases h; decide⟩

theorem inv_sDrain : sDrain.Inv :=
  ⟨by decide, ⟨by decide, rfl, frameA, rfl, by decide⟩, rfl,
    fun f h => by cases h; decide⟩

theorem steps_of_after {s t : State} (h : after (step s) = some t) : step s = .next t := by
  unfold after at h
  split at h
  · next u hu => rw [hu, Option.some.inj h]
  · cases h

/-- Codes that are classes, and an operand of each codec port. -/
theorem witness_WidthClassCodes : (0b000#3 ≠ 0b111#3) ∧ (0b110#3 ≠ 0b111#3) := by decide

/-- The narrowest and the widest class, every bit of every field set. -/
theorem witness_BeatWordPositions :
    beatFits .w1 { beatOf true true true 0 0xFF with usr := 0xFFFFFFFF, err := true } = true ∧
    beatFits .w64 { beatOf true true true 63 (BitVec.allOnes 512) with usr := 0xFFFFFFFF, err := true } = true := by
  decide

theorem witness_BeatWordRoundTrip :
    beatFits .w2 (beatOf true false true 1 0xFFFF) = true ∧ beatFits .w1 (beatOf true false true 0 0xFF) = true := by
  decide

theorem witness_FaultOutputCodes :
    sReq.fault = none ∧ sFaulted.fault = some .sourceError ∧
    { sReq with fault := some (.invariantFailure .noCurrent) }.fault = some (.invariantFailure .noCurrent) ∧
    { sReq with fault := some (.frameTooLong 5) }.fault = some (.frameTooLong 5) := ⟨rfl, rfl, rfl, rfl⟩

/-- An active edge, and an inactive one in an unused state. -/
theorem witness_StepRunsDecodedOperation :
    ((sReq.active = true → sReq.st.recognised = true) ∧
      decode .control [(sReq.ctlWordAt sReq.edgeIn).setWidth 8] .absent = .ok (.reqSwap, [])) ∧
    (((sUnused.withEdges [edge false true]).active = true →
        (sUnused.withEdges [edge false true]).st.recognised = true) ∧
      decode .control [((sUnused.withEdges [edge false true]).ctlWordAt (edge false true)).setWidth 8] .absent =
        .ok (.idle true 0b00, [])) := by
  refine ⟨⟨fun _ => rfl, rfl⟩, fun h => ?_, rfl⟩
  revert h
  decide

/-- A line for each arm of the choice. -/
theorem witness_StepChoosesArm :
    (sFaulted.withEdges [rstEdge]).edgeIn.rst = true ∧
    (sFaulted.edgeIn.rst = false ∧ sFaulted.fault ≠ none) ∧
    ((sReq.withEdges [edge false true]).edgeIn = edge false true ∧ sReq.fault = none) ∧
    (sInit.edgeIn = edge true false ∧ sInit.st = .init) ∧
    (sFirst.edgeIn.ack = false ∧ sFirst.st = .requesting) ∧
    (sReq.edgeIn.ack = true ∧ sReq.st = .requesting) ∧
    (sStream.edgeIn.avail = true ∧ sStream.st = .streaming) ∧
    (sDrain.edgeIn.avail = true ∧ sDrain.st = .draining) ∧
    (sUnused.edgeIn = edge true false ∧ sUnused.fault = none ∧ sUnused.st = .unused 4) := by decide

theorem witness_UnrecognisedStateAborts :
    (sUnused.st = .unused 4 ∧ sUnused.fault = none ∧ sUnused.edgeIn = edge true false) ∧
    (sUnused.withEdges [edge false false]).edgeIn = edge false false := by decide

/-- In STREAMING with an active edge, and in REQUESTING with each kind of edge that is not active. -/
theorem witness_AckReadOnlyInRequesting :
    (sStream.st ≠ .requesting ∨ sStream.activeAt (edge true false) = false) ∧
    (sReq.st = .requesting ∧ sReq.activeAt (edge false true) = false ∧ sReq.activeAt rstEdge = false) ∧
    (sFaulted.st = .requesting ∧ sFaulted.activeAt (edge true true) = false) := by decide

theorem witness_ResetStateValues :
    (∃ t, exec (.reset true 0xF) (capped 3 sFaulted) = .next t) ∧ (edge true false).rst = false ∧
    (edge true false).avail = true := ⟨⟨_, rfl⟩, rfl, rfl⟩

/-- A reset edge, and a step that clears a fault. -/
theorem witness_ResetSetsEveryElement :
    (sFaulted.withEdges [rstEdge]).edgeIn.rst = true ∧ sFaulted.fault ≠ none ∧
    ∃ t, step (sFaulted.withEdges [rstEdge]) = .next t ∧ t.fault = none :=
  ⟨rfl, by decide, _, steps_of_after test_reset, rfl⟩

theorem witness_FaultedHoldsEverything :
    sFaulted.fault ≠ none ∧ sFaulted.edgeIn.rst = false ∧ ∃ t, step sFaulted = .next t :=
  ⟨by decide, rfl, _, steps_of_after test_faulted⟩

theorem witness_IdleHoldsEverything :
    (sReq.withEdges [edge false true]).edgeIn.rst = false ∧ sReq.fault = none ∧
    (sReq.withEdges [edge false true]).edgeIn.avail = false := ⟨rfl, rfl, rfl⟩

/-- The first and last lane, inside and past the end; an offset at the end. -/
theorem witness_PackCopiesBigEndianLanes :
    (0 < WidthClass.w1.bytes ∧ 63 < WidthClass.w64.bytes) ∧ (4 + 0 < bytesA.length ∧ ¬ 4 + 1 < bytesA.length) ∧
    bytesA.length ≤ 5 := by decide

/-- `k = 0`, `k = 1` and `k = W`, in the narrowest and the widest class. -/
theorem witness_ValidCountRoundTrip :
    (0 ≤ WidthClass.w1.bytes ∧ 1 ≤ WidthClass.w1.bytes) ∧ (1 ≤ 64 ∧ 64 ≤ WidthClass.w64.bytes) := by decide

theorem witness_ValidCountCodeIsBijection :
    ((0 : ModField).toNat < 2 ^ WidthClass.w1.modW ∧ encVc .w1 1 = 0) ∧
    ((63 : ModField).toNat < 2 ^ WidthClass.w64.modW ∧ 63 ≤ WidthClass.w64.bytes ∧ encVc .w64 63 = 63) := by
  decide

theorem witness_ReassemblyGivesFrameBack : bytesA ≠ [] ∧ bytesB ≠ [] := by decide

/-- `N = W` and `N = 2W`. -/
theorem witness_ThreshBuildsFrame :
    [1, 2, 3, 4].length ≤ sReq.cfg.c.bytes ∧ [1, 2, 3, 4, 5, 6, 7, 8].length ≤ 2 * sReq.cfg.c.bytes := by decide

/-- A frame at the capacity and one a byte above it. -/
theorem witness_FetchFillsPending :
    ((capped 5 (blockOf .w4)).pend = none ∧ (capped 5 (blockOf .w4)).nextAnswer = .frame bytesA ∧
      fitsSlot (capped 5 (blockOf .w4)).cfg bytesA.length = true) ∧
    sReq.pend ≠ none ∧
    ((failing sInit).pend = none ∧ (failing sInit).nextAnswer = .sourceError) ∧
    ((capped 4 (blockOf .w4)).pend = none ∧ (capped 4 (blockOf .w4)).nextAnswer = .frame bytesA ∧
      fitsSlot (capped 4 (blockOf .w4)).cfg bytesA.length = false) := by decide

/-- A call, a step without one, and the two states that fetch. -/
theorem witness_FetchFillsPending_inv :
    ((∃ t, exec .fetch sInit = .next t) ∧ sInit.pend = none) ∧ ((∃ t, exec .fetch sReq = .next t) ∧ sReq.pend ≠ none) ∧
    (sInit.Inv ∧ sInit.st = .init) ∧ (sStream.Inv ∧ sStream.st = .streaming) :=
  ⟨⟨⟨_, rfl⟩, rfl⟩, ⟨⟨_, rfl⟩, by decide⟩, ⟨inv_sInit, rfl⟩, inv_sStream, rfl⟩

theorem witness_SwapPromotesPending :
    sReq.pend = some frameB ∧ sStream.pend = none ∧ (sReq.Inv ∧ sReq.st = .requesting) :=
  ⟨rfl, rfl, inv_sReq, rfl⟩

theorem witness_BeatFormsFromCursor : sReq.cur = some frameA ∧ sStream.cur = some frameC := ⟨rfl, rfl⟩

/-- Below the threshold, at it, with the slot full, with an error, with a frame too long. -/
theorem witness_RequestDecidedAtThreshold :
    (sStream.cur = some frameC ∧ sStream.cursor < frameC.prefetchOffset) ∧
    ({ sStream with cursor := 1 }.cur = some frameC ∧ frameC.prefetchOffset ≤ { sStream with cursor := 1 }.cursor ∧
      sStream.pend = none ∧ sStream.nextAnswer = .frame bytesB ∧ fitsSlot sStream.cfg bytesB.length = true) ∧
    (sDrain.cur = some frameA ∧ frameA.prefetchOffset ≤ sDrain.cursor ∧ sDrain.pend ≠ none) ∧
    (frameC.prefetchOffset ≤ (failing { sStream with cursor := 1 }).cursor ∧
      (failing { sStream with cursor := 1 }).nextAnswer = .sourceError) ∧
    ((capped 1 sStream).nextAnswer = .frame bytesB ∧ fitsSlot (capped 1 sStream).cfg bytesB.length = false) := by
  decide

/-- At the last offset, one below it, at the prefetch offset, one below that. -/
theorem witness_NextStateRule :
    { sStream with cursor := 5 }.cur = some frameC ∧ frameC.lastOffset ≤ { sStream with cursor := 5 }.cursor ∧
    ({ sStream with cursor := 4 }.cursor < frameC.lastOffset ∧
      frameC.prefetchOffset ≤ { sStream with cursor := 1 }.cursor) ∧
    (sStream.cursor < frameC.lastOffset ∧ sStream.cursor < frameC.prefetchOffset) := by decide

theorem witness_EmptySlotReadStops : sFirst.cur = none := rfl

theorem witness_InitMakesFirstFetch :
    (sInit.pend = none ∧ sInit.nextAnswer = .frame bytesB ∧ fitsSlot sInit.cfg bytesB.length = true) ∧
    { sInit with pend := some frameB }.pend ≠ none ∧
    ((failing sInit).pend = none ∧ (failing sInit).nextAnswer = .sourceError) ∧
    ((capped 1 sInit).pend = none ∧ (capped 1 sInit).nextAnswer = .frame bytesB ∧
      fitsSlot (capped 1 sInit).cfg bytesB.length = false) := by decide

/-- A state in INIT, and a step that enters it. -/
theorem witness_InitMakesFirstFetch_inv :
    (sInit.Inv ∧ sInit.st = .init) ∧ ∃ t, step (sFaulted.withEdges [rstEdge]) = .next t ∧ t.st = .init :=
  ⟨⟨inv_sInit, rfl⟩, _, steps_of_after test_reset, rfl⟩

theorem witness_HoldKeepsRequest :
    (sReq.Inv ∧ sReq.st = .requesting) ∧
    ((sReq.withEdges [edge true false]).selected = .op .reqHold ∧ sReq.cur ≠ none) :=
  ⟨⟨inv_sReq, rfl⟩, by decide, by decide⟩

theorem witness_SwapEmitsFirstBeat :
    (sReqLong.pend = some frameC ∧ 0 < frameC.prefetchOffset) ∧
    (sReq.pend = some frameB ∧ frameB.prefetchOffset = 0 ∧ sReq.nextAnswer = .frame bytesC ∧
      fitsSlot sReq.cfg bytesC.length = true) ∧
    { sReq with pend := none }.pend = none ∧
    (failing sReq).nextAnswer = .sourceError ∧
    ((capped 8 sReq).nextAnswer = .frame bytesC ∧ fitsSlot (capped 8 sReq).cfg bytesC.length = false) := by
  decide

/-- An invariant state in REQUESTING, and a step that writes `bits`. -/
theorem witness_SwapEmitsFirstBeat_inv :
    (sReq.Inv ∧ sReq.st = .requesting) ∧ ∃ t, step sReq = .next t ∧ t.bits ≠ sReq.bits :=
  ⟨⟨inv_sReq, rfl⟩, _, steps_of_after test_reqSwap_fetches_on_first_beat, by decide⟩

/-- Below the threshold after the advance, at it, and each of the raising clauses. -/
theorem witness_StreamAdvancesAndDecides :
    (sStreamEarly.cur = some frameD ∧ sStreamEarly.cursor < frameD.lastOffset ∧
      4 = min (sStreamEarly.cursor + sStreamEarly.cfg.c.bytes) frameD.len ∧ 4 < frameD.prefetchOffset) ∧
    (sStream.cur = some frameC ∧ sStream.cursor < frameC.lastOffset ∧
      4 = min (sStream.cursor + sStream.cfg.c.bytes) frameC.len ∧ frameC.prefetchOffset ≤ 4 ∧ sStream.pend = none ∧
      sStream.nextAnswer = .frame bytesB ∧ fitsSlot sStream.cfg bytesB.length = true) ∧
    sInit.cur = none ∧
    ({ sStream with cursor := 5 }.cur = some frameC ∧ frameC.lastOffset ≤ { sStream with cursor := 5 }.cursor) ∧
    { sStream with pend := some frameB }.pend ≠ none ∧
    (failing sStream).nextAnswer = .sourceError ∧
    ((capped 1 sStream).nextAnswer = .frame bytesB ∧ fitsSlot (capped 1 sStream).cfg bytesB.length = false) := by
  decide

theorem witness_StreamAdvancesAndDecides_inv :
    (sStream.Inv ∧ sStream.st = .streaming) ∧ (sStreamEarly.Inv ∧ sStreamEarly.st = .streaming) :=
  ⟨⟨inv_sStream, rfl⟩, inv_sStreamEarly, rfl⟩

theorem witness_DrainAdvancesWithoutDecision :
    (sDrain.cur = some frameA ∧ sDrain.cursor < frameA.lastOffset ∧
      4 = min (sDrain.cursor + sDrain.cfg.c.bytes) frameA.len) ∧
    sInit.cur = none ∧
    ({ sDrain with cursor := 1 }.cur = some frameA ∧ frameA.lastOffset ≤ { sDrain with cursor := 1 }.cursor) := by
  decide

theorem witness_DrainAdvancesWithoutDecision_inv :
    sDrain.Inv ∧ sDrain.st = .draining ∧ ∃ t, exec (.drain true) sDrain = .next t := ⟨inv_sDrain, rfl, _, rfl⟩

theorem witness_FaultEntryIsPrecise :
    sStream.fault = none ∧ ∃ t, step (failing sStream) = .next t ∧ t.fault = some .sourceError :=
  ⟨rfl, _, steps_of_after test_stream_source_error, rfl⟩

/-- The four edges decided before an arm. -/
theorem witness_FirstFailingCheckIsRaised_edges :
    (∃ t, step (sFaulted.withEdges [rstEdge]) = .next t) ∧ (∃ t, step sFaulted = .next t) ∧ sFaulted.fault ≠ none ∧
    (∃ t, step (sReq.withEdges [edge false true]) = .next t) ∧ sReq.fault = none ∧
    (∃ t, step sUnused = .next t) ∧ sUnused.edgeIn = edge true false ∧ sUnused.st = .unused 4 :=
  ⟨⟨_, steps_of_after test_reset⟩, ⟨_, steps_of_after test_faulted⟩, by decide,
    ⟨_, steps_of_after test_idle.1⟩, rfl, ⟨_, rfl⟩, rfl, rfl⟩

/-- An operation that raises, and one whose checks pass. -/
theorem witness_FirstFailingCheckIsRaised :
    (∃ t, exec .swap sStream = .next t) ∧ firstFault .swap sStream = some (.invariantFailure .pendingEmpty) ∧
    (∃ t, exec .swap sReq = .next t) ∧ firstFault .swap sReq = none ∧ (∀ flt sel, Instr.swap ≠ .reset flt sel) :=
  ⟨⟨_, rfl⟩, rfl, ⟨_, rfl⟩, rfl, nofun⟩

theorem witness_SourceErrorOnlyFromFetch :
    ((failing sInit).pend = none ∧ (failing sInit).nextAnswer = .sourceError) ∧
    (failing sStream).fault = none ∧ ∃ t, step (failing sStream) = .next t ∧ t.fault = some .sourceError :=
  ⟨⟨rfl, rfl⟩, rfl, _, steps_of_after test_stream_source_error, rfl⟩

/-- A step that raises it, and a frame a byte above the capacity. -/
theorem witness_FrameTooLongOnlyAboveCapacity :
    ((capped 1 sInit).fault = none ∧
      (after (step (capped 1 sInit))).map State.fault = some (some (.frameTooLong 2))) ∧
    ((capped 4 (blockOf .w4)).pend = none ∧ (capped 4 (blockOf .w4)).nextAnswer = .frame bytesA ∧
      (capped 4 (blockOf .w4)).cfg.nmax = some 4 ∧ 4 < bytesA.length) := by decide

theorem witness_NoInvariantFailureFromInvariant : sReq.Inv ∧ sReq.fault = none ∧ ∃ t, step sReq = .next t :=
  ⟨inv_sReq, rfl, _, steps_of_after test_reqSwap_fetches_on_first_beat⟩

theorem witness_ConfigurationNeverWritten : (∃ t, exec .swap sReq = .next t) ∧ ∃ t, step sReq = .next t :=
  ⟨⟨_, rfl⟩, _, steps_of_after test_reqSwap_fetches_on_first_beat⟩

/-- A step that changes `req`; an INIT and a REQ_DECIDE that raise nothing; a reset. -/
theorem witness_RequestLineWriters :
    (after (step sInit)).map (fun t => decide (t.req ≠ sInit.req)) = some true ∧
    (after (exec (.init true) sInit)).map State.fault = some none ∧
    (sStream.cur = some frameC ∧ (after (exec .reqDecide sStream)).map State.fault = some none) ∧
    (∃ t, exec (.reset false 0) sReq = .next t) :=
  ⟨by decide, by decide, by decide, _, rfl⟩

theorem witness_CurrentSlotWriters :
    (∃ t, exec .swap sReq = .next t ∧ t.cur ≠ sReq.cur) ∧
    (∃ t, step sReq = .next t ∧ t.cur = some frameB ∧ sReq.cur ≠ some frameB) :=
  ⟨⟨_, rfl, by decide⟩,
    _, steps_of_after test_reqSwap_fetches_on_first_beat, rfl, by decide⟩

/-- A swap that restarts the cursor and a drain that advances it. -/
theorem witness_CursorWriters :
    (after (exec .reqSwap sReq)).map (fun t => (t.cursor, t.fault)) = some (0, none) ∧ sReq.cursor = 4 ∧
    (after (exec (.drain true) sDrain)).map (fun t => (t.cursor, t.fault)) = some (4, none) ∧ sDrain.cursor = 0 ∧
    (after (exec (.stream true) sStream)).map (fun t => (t.cursor, t.fault)) = some (4, none) := by decide

/-- A field that an operation does not write, for each field. -/
theorem witness_OperationFrames :
    (∃ t, exec .swap sReq = .next t) ∧
    mayWrite .st .swap = false ∧ mayWrite .cur .fetch = false ∧ mayWrite .pend .nextState = false ∧
    mayWrite .cursor .swap = false ∧ mayWrite .req .swap = false ∧ mayWrite .out .fetch = false ∧
    mayWrite .bits .swap = false ∧ mayWrite .fault .reqHold = false ∧ mayWrite .source (.drain true) = false ∧
    mayWrite .tap .swap = false := ⟨⟨_, rfl⟩, rfl, rfl, rfl, rfl, rfl, rfl, rfl, rfl, rfl, rfl⟩

theorem witness_FramesMoveWhole : ∃ t, step sReq = .next t := ⟨_, steps_of_after test_reqSwap_fetches_on_first_beat⟩

/-- `N = 2` and `N = W = 4` for `W = 4`. -/
theorem witness_OneBeatFrameIsFirstAndLast :
    Memory.wf sReq = true ∧ sReq.pend = some frameB ∧ frameB.len ≤ sReq.cfg.c.bytes ∧ sReq.fault = none ∧
    (after (exec .reqSwap sReq)).map State.fault = some none := by decide

theorem witness_ShortFramePrefetchesAtOnce :
    Memory.wf sFirst = true ∧ sFirst.pend = some frameA ∧ frameA.len ≤ 2 * sFirst.cfg.c.bytes ∧ sFirst.fault = none ∧
    (after (exec .reqSwap sFirst)).map State.fault = some none := by decide

/-- `sReq` with the empty frame pending. -/
theorem witness_EmptyFrameGivesOneZeroBeat :
    Memory.wf { sReq with pend := some frameE } = true ∧ frameE.bytes = [] ∧ sReq.nextAnswer = .frame bytesC ∧
    fitsSlot sReq.cfg bytesC.length = true := by decide

theorem noReset_sReq : noResetFor 1 sReq := fun j hj => by
  cases Nat.lt_one_iff.mp hj
  rfl

theorem witness_FrameBeatsInOrder :
    sReq.Inv ∧ sReq.fault = none ∧ sReq.st = .requesting ∧ sReq.pend = some frameB ∧ noResetFor 1 sReq :=
  ⟨inv_sReq, rfl, rfl, rfl, noReset_sReq⟩

theorem witness_FrameTakesOneStepPerBeat :
    sReq.Inv ∧ sReq.fault = none ∧ sReq.st = .requesting ∧ sReq.pend = some frameB ∧
    sReq.nextAnswer = .frame bytesC ∧ fitsSlot sReq.cfg bytesC.length = true ∧ (sReq.edgeInAfter 0).ack = true ∧
    ∀ j, j < beatCount sReq.cfg.c frameB.len → (sReq.edgeInAfter j).rst = false ∧ (sReq.edgeInAfter j).avail = true := by
  refine ⟨inv_sReq, rfl, rfl, rfl, rfl, rfl, rfl, fun j hj => ?_⟩
  have h : j = 0 := Nat.lt_one_iff.mp hj
  subst h
  exact ⟨rfl, rfl⟩

/-- Two runs of different lengths under different inputs. -/
theorem witness_BeatsIndependentOfHarness :
    sameBlock sReq (sReq.withEdges []) ∧ noResetFor 1 sReq ∧ noResetFor 0 (sReq.withEdges []) :=
  ⟨⟨rfl, rfl, rfl, rfl, rfl, rfl, rfl, rfl, rfl, rfl, rfl⟩, noReset_sReq, nofun⟩

theorem witness_BubblesAreHolds :
    sReq.Inv ∧ raises (sReq.withEdges [edge true false]) = false ∧ isBubble (sReq.withEdges [edge true false]) = true :=
  ⟨inv_sReq, by decide, by decide⟩

/-- A step, and a run from a faulted block. -/
theorem witness_ReachableInvariantKept :
    (sReq.Inv ∧ ∃ t, step sReq = .next t) ∧ runP2.startsWithReset = true :=
  ⟨⟨inv_sReq, _, steps_of_after test_reqSwap_fetches_on_first_beat⟩, rfl⟩

theorem witness_MemoryFormKept : Memory.wf sReq = true ∧ ∃ t, step sReq = .next t :=
  ⟨inv_sReq.1, _, steps_of_after test_reqSwap_fetches_on_first_beat⟩

theorem witness_OutputFormKept : OutInv sReq ∧ ∃ t, step sReq = .next t :=
  ⟨⟨rfl, rfl, by decide⟩, _, steps_of_after test_reqSwap_fetches_on_first_beat⟩

theorem witness_BitsHintKept : BitsInv sReq ∧ BitsInv sFirst ∧ ∃ t, step sReq = .next t :=
  ⟨rfl, rfl, _, steps_of_after test_reqSwap_fetches_on_first_beat⟩

theorem witness_InvariantsAtReset :
    (sFaulted.withEdges [rstEdge]).edgeIn.rst = true ∧ ∃ t, step (sFaulted.withEdges [rstEdge]) = .next t :=
  ⟨rfl, _, steps_of_after test_reset⟩

end Sys2Proof.Tests
end

section
/-!
PROOF. Who writes which state element (10_state R22, R24, R25, R29), and the values after reset (R35). What each
operation does to the configuration, the current slot and the cursor is said once (`exec_positionEffect`); the
statements about their writers follow from it.
-/

namespace Sys2Proof.Machine

/-! ### The end of a step -/

/-- A step that leaves no fault went through. -/
theorem commit_go_of_fault_none {s t : State} {x : Flow} (h : commit s x = .next t) (ht : t.fault = none) :
    x = .go t := by
  rcases commit_eq_next.mp h with hgo | ⟨f, a, -, rfl⟩
  · exact hgo
  · cases ht

/-- A step is the selected operation, or the fault of an unrecognised state. -/
theorem step_eq_next {s t : State} : step s = .next t ↔
    (∃ i, s.selected = .op i ∧ exec i s.tick = .next t) ∨
    (s.selected = .unrecognised ∧ raiseUnrecognised s.tick = t) := by
  cases hs : s.selected <;> simp [step, hs]

/-- No control word selects SWAP by itself. -/
theorem decodeCtl_ne_swap (ctl : BitVec 6) : decodeCtl ctl ≠ .swap := by
  revert ctl; decide

theorem selected_ne_swap (s : State) : s.selected ≠ .op .swap := by
  unfold State.selected State.selectAt
  split
  · simp
  · simpa using decodeCtl_ne_swap _

/-! ### The position: configuration, current slot and cursor -/

/-- The configuration, the current slot and the cursor are the same. -/
structure KeepsPosition (s t : State) : Prop where
  cfg : t.cfg = s.cfg
  cur : t.cur = s.cur
  cursor : t.cursor = s.cursor

/-- The pending frame has become current, with the cursor at its start (42_framestreamer R158). -/
structure StartsFrame (s t : State) : Prop where
  cfg : t.cfg = s.cfg
  moved : ∃ f, s.pend = some f ∧ t.cur = some f
  cursor : t.cursor = 0

/-- The cursor has advanced within the current frame (42_framestreamer R159, R160). -/
structure AdvancesCursor (s t : State) : Prop where
  cfg : t.cfg = s.cfg
  cur : t.cur = s.cur
  cursor : ∃ f, s.cur = some f ∧ t.cursor = min (s.cursor + s.cfg.c.bytes) f.len

theorem KeepsPosition.trans {s t u : State} (h : KeepsPosition s t) (k : KeepsPosition t u) : KeepsPosition s u :=
  ⟨k.cfg.trans h.cfg, k.cur.trans h.cur, k.cursor.trans h.cursor⟩

theorem keepsPosition_fetchFlow {s t : State} (h : fetchFlow s = .go t) : KeepsPosition s t := by
  rcases fetchFlow_cases s with ⟨-, e⟩ | ⟨-, -, e⟩ | ⟨bs, -, -, -, e⟩ | ⟨bs, -, -, -, e⟩ <;> cases e.symm.trans h
  exact ⟨rfl, rfl, rfl⟩

/-- A completed INIT has set `req`, and left the position as it was. -/
theorem initFlow_go {s t : State} (h : initFlow s = .go t) : KeepsPosition s t ∧ t.req = true := by
  rcases initFlow_cases s with ⟨-, e⟩ | ⟨-, -, e⟩ | ⟨bs, -, -, -, e⟩ | ⟨bs, -, -, -, e⟩ <;> cases e.symm.trans h
  exact ⟨⟨rfl, rfl, rfl⟩, rfl⟩

theorem keepsPosition_beatFlow {s t : State} {b : Bool} (h : beatFlow b s = .go t) : KeepsPosition s t := by
  cases hc : s.cur with
  | none => cases (beatFlow_none hc).symm.trans h
  | some f =>
    cases (beatFlow_some hc).symm.trans h
    exact ⟨rfl, rfl, rfl⟩

theorem keepsPosition_nextStateFlow {s t : State} (h : nextStateFlow s = .go t) : KeepsPosition s t := by
  cases hc : s.cur with
  | none => cases (nextStateFlow_none hc).symm.trans h
  | some f =>
    cases (nextStateFlow_some hc).symm.trans h
    exact ⟨rfl, rfl, rfl⟩

/-- A completed REQ_DECIDE has left `req` at the threshold test, and the position as it was. -/
theorem reqDecideFlow_go {s t : State} (h : reqDecideFlow s = .go t) :
    KeepsPosition s t ∧ ∃ f, s.cur = some f ∧ t.req = decide (f.prefetchOffset ≤ s.cursor) := by
  cases hc : s.cur with
  | none => cases (reqDecideFlow_none hc).symm.trans h
  | some f =>
    by_cases hp : f.prefetchOffset ≤ s.cursor
    · rw [reqDecideFlow_due hc hp] at h
      obtain ⟨u, hu, ht⟩ := Flow.andThen_eq_go.mp h
      cases ht
      exact ⟨(keepsPosition_fetchFlow hu).trans ⟨rfl, rfl, rfl⟩, f, rfl, by simp [hp]⟩
    · cases (reqDecideFlow_early hc (Nat.not_le.mp hp)).symm.trans h
      exact ⟨⟨rfl, rfl, rfl⟩, f, rfl, by simp [hp]⟩

theorem keepsPosition_beatDecideNext {s t : State} {b : Bool} (h : beatDecideNext b s = .go t) :
    KeepsPosition s t := by
  obtain ⟨u, hu, h⟩ := Flow.andThen_eq_go.mp h
  obtain ⟨v, hv, h⟩ := Flow.andThen_eq_go.mp h
  exact (keepsPosition_beatFlow hu).trans ((reqDecideFlow_go hv).1.trans (keepsPosition_nextStateFlow h))

theorem startsFrame_of_reqSwapFlow {s t : State} (h : reqSwapFlow s = .go t) : StartsFrame s t := by
  cases hp : s.pend with
  | none => cases (reqSwapFlow_none hp).symm.trans h
  | some f =>
    have keep := keepsPosition_beatDecideNext ((reqSwapFlow_some hp).symm.trans h)
    exact ⟨keep.cfg, ⟨f, hp, keep.cur⟩, keep.cursor⟩

theorem advancesCursor_of_streamFlow {s t : State} (h : streamFlow s = .go t) : AdvancesCursor s t := by
  cases hc : s.cur with
  | none => cases (streamFlow_none hc).symm.trans h
  | some f =>
    by_cases hl : f.lastOffset ≤ s.cursor
    · cases (streamFlow_past hc hl).symm.trans h
    · have keep := keepsPosition_beatDecideNext ((streamFlow_some hc (Nat.not_le.mp hl)).symm.trans h)
      exact ⟨keep.cfg, keep.cur, f, hc, keep.cursor⟩

/-- What a completed DRAIN answers. -/
theorem drainFlow_go {s t : State} (h : drainFlow s = .go t) :
    ∃ f, s.cur = some f ∧ t = beatState s f (advanceCursor s.cfg.c f.len s.cursor) false := by
  cases hc : s.cur with
  | none => cases (drainFlow_none hc).symm.trans h
  | some f =>
    by_cases hl : f.lastOffset ≤ s.cursor
    · cases (drainFlow_past hc hl).symm.trans h
    · cases (drainFlow_some hc (Nat.not_le.mp hl)).symm.trans h
      exact ⟨f, rfl, rfl⟩

theorem advancesCursor_of_drainFlow {s t : State} (h : drainFlow s = .go t) : AdvancesCursor s t := by
  obtain ⟨f, hc, rfl⟩ := drainFlow_go h
  exact ⟨rfl, rfl, f, hc, rfl⟩

/-- All an operation can do to the position. -/
inductive PositionEffect : Instr → State → State → Prop
  | keeps {i : Instr} {s t : State} : KeepsPosition s t → PositionEffect i s t
  | reset (flt : Bool) (sel : BitVec 4) (s : State) : PositionEffect (.reset flt sel) s (resetState s)
  | swap {s : State} {f : Frame} : s.pend = some f → PositionEffect .swap s (s.moveToCur f)
  | reqSwap {s t : State} : StartsFrame s t → PositionEffect .reqSwap s t
  | stream (ack : Bool) {s t : State} : AdvancesCursor s t → PositionEffect (.stream ack) s t
  | drain (ack : Bool) {s t : State} : AdvancesCursor s t → PositionEffect (.drain ack) s t

/-- An operation that ends in `commit` has the effect its flow has where it goes on; a fault keeps the position. -/
theorem positionEffect_of_commit {i : Instr} {s t : State} {x : Flow} (h : commit s x = .next t)
    (go : ∀ u, x = .go u → PositionEffect i s u) : PositionEffect i s t := by
  rcases commit_eq_next.mp h with hgo | ⟨f, a, -, rfl⟩
  · exact go t hgo
  · exact .keeps ⟨rfl, rfl, rfl⟩

theorem exec_positionEffect {i : Instr} {s t : State} (h : exec i s = .next t) : PositionEffect i s t := by
  cases i
  case reset flt sel => cases h; exact .reset flt sel s
  case swap =>
    refine positionEffect_of_commit h fun u hu => ?_
    cases hp : s.pend with
    | none => cases (swapFlow_none hp).symm.trans hu
    | some f => cases (swapFlow_some hp).symm.trans hu; exact .swap hp
  case reqSwap => exact positionEffect_of_commit h fun u hu => .reqSwap (startsFrame_of_reqSwapFlow hu)
  case stream ack => exact positionEffect_of_commit h fun u hu => .stream ack (advancesCursor_of_streamFlow hu)
  case drain ack => exact positionEffect_of_commit h fun u hu => .drain ack (advancesCursor_of_drainFlow hu)
  case init => exact positionEffect_of_commit h fun u hu => .keeps (initFlow_go hu).1
  case fetch => exact positionEffect_of_commit h fun u hu => .keeps (keepsPosition_fetchFlow hu)
  case beat => exact positionEffect_of_commit h fun u hu => .keeps (keepsPosition_beatFlow hu)
  case reqDecide => exact positionEffect_of_commit h fun u hu => .keeps (reqDecideFlow_go hu).1
  case nextState => exact positionEffect_of_commit h fun u hu => .keeps (keepsPosition_nextStateFlow hu)
  -- The rest write the output register or the tap, or nothing.
  all_goals cases h; exact .keeps ⟨rfl, rfl, rfl⟩

theorem exec_cfg {i : Instr} {s t : State} (h : exec i s = .next t) : t.cfg = s.cfg := by
  cases exec_positionEffect h with
  | keeps keep => exact keep.cfg
  | reset => rfl
  | swap => rfl
  | reqSwap start => exact start.cfg
  | stream _ advance => exact advance.cfg
  | drain _ advance => exact advance.cfg

theorem step_cfg {s t : State} (h : step s = .next t) : t.cfg = s.cfg := by
  rcases step_eq_next.mp h with ⟨i, -, hi⟩ | ⟨-, rfl⟩
  · exact (exec_cfg hi).trans s.tick_cfg
  · rfl

/-- Settles O43: what each operation does to the position never touches the configuration, and a step is one
operation or a fault. -/
theorem configurationNeverWritten : Obligations.ConfigurationNeverWritten :=
  ⟨fun _ _ _ => exec_cfg, fun _ _ => step_cfg⟩

/-! ### The request line -/

/-- A step outside reset, INIT, REQ_SWAP and STREAM leaves `req`. -/
theorem step_req_writers {s t : State} (h : step s = .next t) (hr : t.req ≠ s.req) :
    s.edgeIn.rst = true ∨ s.selected = .op (.init s.edgeIn.ack) ∨ s.selected = .op .reqSwap ∨
    s.selected = .op (.stream s.edgeIn.ack) := by
  rcases step_cases s with ⟨hrst, -⟩ | ⟨-, -, e⟩ | ⟨-, -, -, e⟩ | ⟨hrst, hf, ha, arm⟩
  · exact .inl hrst
  · cases e.symm.trans h; exact absurd rfl hr
  · cases e.symm.trans h; exact absurd rfl hr
  have sel := selected_active hrst hf ha
  rcases arm with ⟨hst, -⟩ | ⟨-, -, e⟩ | ⟨hst, hack, -⟩ | ⟨hst, -⟩ | ⟨-, e⟩ | ⟨n, -, e⟩
  · exact .inr (.inl (by simpa [hst, St.recognised, armOf] using sel))
  · cases e.symm.trans h; exact absurd rfl hr
  · exact .inr (.inr (.inl (by simpa [hst, hack, St.recognised, armOf] using sel)))
  · exact .inr (.inr (.inr (by simpa [hst, St.recognised, armOf] using sel)))
  · rcases commit_eq_next.mp (e.symm.trans h) with hgo | ⟨f, a, -, rfl⟩
    · obtain ⟨f, -, rfl⟩ := drainFlow_go hgo
      exact absurd rfl hr
    · exact absurd rfl hr
  · cases e.symm.trans h; exact absurd rfl hr

/-- Settles O44: the steps other than reset, INIT, REQ_SWAP and STREAM leave `req`, and each writer that completes
leaves the value of its rule. -/
theorem requestLineWriters : Obligations.RequestLineWriters := by
  refine ⟨fun s t => step_req_writers, fun s t ack h ht => (initFlow_go (commit_go_of_fault_none h ht)).2,
    fun s t f hc h ht => ?_, fun s t flt sel h => ?_, fun s => rfl⟩
  · obtain ⟨-, g, hg, hreq⟩ := reqDecideFlow_go (commit_go_of_fault_none h ht)
    cases hc.symm.trans hg
    exact hreq
  · cases h; rfl

/-! ### The current slot -/

/-- A frame newly current after a step was the pending one, moved by REQ_SWAP. -/
theorem step_cur_new {s t : State} {f : Frame} (h : step s = .next t) (ht : t.cur = some f) (hs : s.cur ≠ some f) :
    s.selected = .op .reqSwap ∧ s.pend = some f := by
  rcases step_eq_next.mp h with ⟨i, hi, he⟩ | ⟨-, rfl⟩
  · cases exec_positionEffect he with
    | keeps keep => exact absurd (keep.cur.symm.trans ht) hs
    | reset => cases ht
    | swap => exact absurd hi (selected_ne_swap s)
    | reqSwap start =>
      obtain ⟨g, hg, hcur⟩ := start.moved
      cases hcur.symm.trans ht
      exact ⟨hi, hg⟩
    | stream _ advance => exact absurd (advance.cur.symm.trans ht) hs
    | drain _ advance => exact absurd (advance.cur.symm.trans ht) hs
  · exact absurd ht hs

/-- Settles O45: of the effects on the position only those of SWAP, REQ_SWAP and RESET change `cur`, and no control
word selects SWAP by itself. -/
theorem currentSlotWriters : Obligations.CurrentSlotWriters := by
  refine ⟨fun i s t h hne => ?_, fun s t f => step_cur_new, rfl⟩
  cases exec_positionEffect h with
  | keeps keep => exact absurd keep.cur hne
  | reset flt sel => exact .inr (.inr ⟨flt, sel, rfl⟩)
  | swap => exact .inl rfl
  | reqSwap => exact .inr (.inl rfl)
  | stream _ advance => exact absurd advance.cur hne
  | drain _ advance => exact absurd advance.cur hne

/-! ### The cursor -/

/-- Settles O46: the effects on the position say which operations change the cursor; a completed REQ_SWAP starts a
frame, and a completed STREAM or DRAIN advances in one. -/
theorem cursorWriters : Obligations.CursorWriters := by
  refine ⟨fun i s t h hne => ?_, fun s t h ht => ?_, fun s t ack h ht => ?_, fun s t flt sel h => ?_⟩
  · cases exec_positionEffect h with
    | keeps keep => exact absurd keep.cursor hne
    | reset flt sel => exact .inl ⟨.inr ⟨flt, sel, rfl⟩, rfl⟩
    | swap => exact absurd rfl hne
    | reqSwap start => exact .inl ⟨.inl rfl, start.cursor⟩
    | stream ack advance => exact .inr ⟨⟨ack, .inl rfl⟩, advance.cursor⟩
    | drain ack advance => exact .inr ⟨⟨ack, .inr rfl⟩, advance.cursor⟩
  · exact (startsFrame_of_reqSwapFlow (commit_go_of_fault_none h ht)).cursor
  · rcases h with h | h
    · exact (advancesCursor_of_streamFlow (commit_go_of_fault_none h ht)).cursor
    · exact (advancesCursor_of_drainFlow (commit_go_of_fault_none h ht)).cursor
  · cases h; rfl

/-! ### Reset -/

/-- Settles O14: each value of the table is that of `State.reset`, RESET leaves the configuration, and an active edge
in state INIT selects the INIT arm. -/
theorem resetStateValues : Obligations.ResetStateValues := by
  refine ⟨rfl, rfl, rfl, rfl, rfl, rfl, rfl, rfl, rfl, fun flt sel s t => exec_cfg, fun e es hrst havail => ?_⟩
  exact selected_active (s := State.reset.withEdges (e :: es)) hrst rfl havail

end Sys2Proof.Machine
end

section
/-!
PROOF. The encodings of 30_encoding: the selector word (R78), the class codes (R70), the beat word (R73) and the
fault output (R84). The beat word is read as a number once (`wireWord_toNat`); the position of each field is
arithmetic on that number.
-/

namespace Sys2Proof.Machine

/-! ### The beat word as a number -/

/-- The beat word of every class has room in the widest class's (30_encoding R71). -/
theorem wireW_le (c : WidthClass) : c.wireW ≤ 554 := by cases c <;> decide

theorem beatFits_iff {c : WidthClass} {b : Beat} :
    beatFits c b = true ↔ b.mod.toNat < 2 ^ c.modW ∧ b.dat.toNat < 2 ^ c.datW := by
  simp [beatFits]

/-- A field of `w` bits put at bit `q` is its value times `2^q`, when the word has room for it. -/
theorem field_toNat {t n w q : Nat} {x : BitVec n} (hx : x.toNat < 2 ^ w) (hq : q + w ≤ t) :
    (x.setWidth t <<< q).toNat = 2 ^ q * x.toNat := by
  have room : 2 ^ q * x.toNat < 2 ^ t :=
    calc 2 ^ q * x.toNat < 2 ^ q * 2 ^ w := Nat.mul_lt_mul_of_pos_left hx (Nat.two_pow_pos q)
      _ = 2 ^ (q + w) := (Nat.pow_add 2 q w).symm
      _ ≤ 2 ^ t := Nat.pow_le_pow_right (by decide) hq
  have fits : x.toNat < 2 ^ t := (Nat.le_mul_of_pos_left _ (Nat.two_pow_pos q)).trans_lt room
  rw [BitVec.toNat_shiftLeft, BitVec.toNat_setWidth, Nat.mod_eq_of_lt fits, Nat.shiftLeft_eq, Nat.mul_comm,
    Nat.mod_eq_of_lt room]

theorem wireBit_toNat (b : Bool) {q : Nat} (hq : q + 1 ≤ 554) : (wireBit b q).toNat = 2 ^ q * b.toNat :=
  (field_toNat (BitVec.isLt _) hq).trans (by rw [BitVec.toNat_ofBool])

/-- A field of `w` bits joined below a word that starts `w` bits higher: the values concatenate. -/
theorem or_field_toNat {t q w a f : Nat} {acc fld : BitVec t} (hacc : acc.toNat = 2 ^ (q + w) * a)
    (hfld : fld.toNat = 2 ^ q * f) (hf : f < 2 ^ w) : (acc ||| fld).toNat = 2 ^ q * (2 ^ w * a + f) := by
  have below : 2 ^ q * f < 2 ^ (q + w) := by
    rw [Nat.pow_add]
    exact Nat.mul_lt_mul_of_pos_left hf (Nat.two_pow_pos q)
  rw [BitVec.toNat_or, hacc, hfld, ← Nat.two_pow_add_eq_or_of_lt below, Nat.pow_add, Nat.mul_add, Nat.mul_assoc]

/-- One bit joined below a word that starts at the next bit. -/
theorem or_wireBit_toNat {acc : WireWord} {q a : Nat} (b : Bool) (hacc : acc.toNat = 2 ^ (q + 1) * a)
    (hq : q + 1 ≤ 554) : (acc ||| wireBit b q).toNat = 2 ^ q * Nat.bit b a := by
  rw [Nat.bit_val]
  exact or_field_toNat hacc (wireBit_toNat b hq) b.toNat_lt

/-- The 36 bits of the beat word above `mod`: `{usr, err, val, sof, eof}`. -/
def wireHigh (b : Beat) : Nat := Nat.bit b.eof (Nat.bit b.sof (Nat.bit b.val (Nat.bit b.err b.usr.toNat)))

theorem wireHigh_lt (b : Beat) : wireHigh b < 2 ^ 36 := by
  simp only [wireHigh, Nat.bit_lt_two_pow_succ_iff]
  exact b.usr.isLt

theorem wireHigh_div_16 (b : Beat) : wireHigh b / 2 ^ 4 = b.usr.toNat := by
  simp only [wireHigh, Nat.pow_succ, ← Nat.div_div_eq_div_mul, Nat.bit_div_two, Nat.pow_zero, Nat.div_one]

/-- The beat word of a beat that fits is the concatenation of 30_encoding R73. -/
theorem wireWord_toNat {c : WidthClass} {b : Beat} (h : beatFits c b = true) :
    (wireWord c b).toNat = 2 ^ c.datW * (2 ^ c.modW * wireHigh b + b.mod.toNat) + b.dat.toNat := by
  obtain ⟨hmod, hdat⟩ := beatFits_iff.mp h
  have hT : c.datW + c.modW + 36 ≤ 554 := wireW_le c
  have usr : (b.usr.setWidth 554 <<< (c.datW + c.modW + 4)).toNat = 2 ^ (c.datW + c.modW + 4) * b.usr.toNat :=
    field_toNat b.usr.isLt (by omega)
  have err := or_wireBit_toNat b.err usr (by omega)
  have val := or_wireBit_toNat b.val err (by omega)
  have sof := or_wireBit_toNat b.sof val (by omega)
  have eof := or_wireBit_toNat b.eof sof (by omega)
  have mod := or_field_toNat eof (field_toNat hmod (by omega)) hmod
  have dat : (b.dat.setWidth 554).toNat = b.dat.toNat := BitVec.toNat_setWidth_of_le (by decide)
  rw [wireWord, BitVec.toNat_or, mod, dat, ← Nat.two_pow_add_eq_or_of_lt hdat, wireHigh]

/-! ### The fields of the beat word -/

section
variable {c : WidthClass} {b : Beat} (h : beatFits c b = true)
include h

theorem wireWord_mod_datW : (wireWord c b).toNat % 2 ^ c.datW = b.dat.toNat := by
  rw [wireWord_toNat h, Nat.mul_add_mod, Nat.mod_eq_of_lt (beatFits_iff.mp h).2]

theorem wireWord_div_datW :
    (wireWord c b).toNat / 2 ^ c.datW = 2 ^ c.modW * wireHigh b + b.mod.toNat := by
  rw [wireWord_toNat h, Nat.mul_add_div (Nat.two_pow_pos _), Nat.div_eq_of_lt (beatFits_iff.mp h).2, Nat.add_zero]

theorem wireWord_div_datW_mod_modW : (wireWord c b).toNat / 2 ^ c.datW % 2 ^ c.modW = b.mod.toNat := by
  rw [wireWord_div_datW h, Nat.mul_add_mod, Nat.mod_eq_of_lt (beatFits_iff.mp h).1]

theorem wireWord_div_high : (wireWord c b).toNat / 2 ^ (c.datW + c.modW) = wireHigh b := by
  rw [Nat.pow_add, ← Nat.div_div_eq_div_mul, wireWord_div_datW h, Nat.mul_add_div (Nat.two_pow_pos _),
    Nat.div_eq_of_lt (beatFits_iff.mp h).1, Nat.add_zero]

theorem wireWord_getLsbD_high (k : Nat) :
    (wireWord c b).getLsbD (c.datW + c.modW + k) = (wireHigh b).testBit k := by
  rw [← wireWord_div_high h, Nat.testBit_div_two_pow, Nat.add_comm k, BitVec.testBit_toNat]

theorem wireWord_lt : (wireWord c b).toNat < 2 ^ (c.datW + c.modW + 36) := by
  rw [Nat.pow_add, Nat.mul_comm, ← Nat.div_lt_iff_lt_mul (Nat.two_pow_pos _), wireWord_div_high h]
  exact wireHigh_lt b

theorem wireWord_div_usr : (wireWord c b).toNat / 2 ^ (c.datW + c.modW + 4) = b.usr.toNat := by
  rw [Nat.pow_add, ← Nat.div_div_eq_div_mul, wireWord_div_high h, wireHigh_div_16]

end

/-- Settles O6: `dat` and `mod` are the two low digits of the word as a number, and the rest is `wireHigh`, whose low
bits are the flags and whose quotient by 16 is `usr`. -/
theorem beatWordPositions : Obligations.BeatWordPositions := fun c b h => by
  have flag := wireWord_getLsbD_high h
  refine ⟨wireWord_lt h, wireWord_mod_datW h, wireWord_div_datW_mod_modW h, (flag 0).trans ?_, (flag 1).trans ?_,
    (flag 2).trans ?_, (flag 3).trans ?_, wireWord_div_usr h⟩ <;>
  simp only [wireHigh, Nat.testBit_bit_succ, Nat.testBit_bit_zero]

/-! ### The selector word -/

theorem selWord_fields (avail ack : Bool) (st : BitVec 2) :
    (selWord avail ack st).getLsbD 3 = avail ∧ (selWord avail ack st).getLsbD 2 = ack ∧
    (selWord avail ack st).extractLsb' 0 2 = st := by
  revert avail ack st; decide

/-- With neither reset nor a recorded fault, the selector decides. -/
theorem decodeCtl_selector (sel : BitVec 4) : decodeCtl (ctlWordOf false false sel) = decodeSel sel := by
  revert sel; decide

theorem decodeSel_idle (ack : Bool) (st : BitVec 2) : decodeSel (selWord false ack st) = .idle ack st :=
  (decodeCtl_selector _).symm.trans (decodeCtl_idle ack st)

/-- The selector of an active edge selects by the state code (30_encoding R78). -/
theorem decodeSel_active (ack : Bool) (st : BitVec 2) :
    decodeSel (selWord true ack st) =
      if st = 0b00#2 then .init ack
      else if st = 0b01#2 then (if ack then .reqSwap else .reqHold)
      else if st = 0b10#2 then .stream ack
      else .drain ack :=
  (decodeCtl_selector _).symm.trans (decodeCtl_active ack st)

/-- Settles O4: reset and a recorded fault come before the selector, and the state code picks the arm of an active
edge. -/
theorem selectorWordSelectsOperation : Obligations.SelectorWordSelectsOperation :=
  ⟨selWord_fields, decodeCtl_reset, decodeCtl_faulted, decodeCtl_selector, decodeSel_idle,
    fun ack => decodeSel_active ack 0b00#2, decodeSel_active false 0b01#2, decodeSel_active true 0b01#2,
    fun ack => decodeSel_active ack 0b10#2, fun ack => decodeSel_active ack 0b11#2⟩

/-! ### The class codes -/

/-- The code of a class is its index. -/
theorem code_toNat (c : WidthClass) : c.code.toNat = c.index := by cases c <;> rfl

theorem index_le_6 (c : WidthClass) : c.index ≤ 6 := by cases c <;> decide

theorem ofCode_code (c : WidthClass) : WidthClass.ofCode c.code = some c := by cases c <;> rfl

/-- The reserved code is not a class's: a class's code is at most 6. -/
theorem code_ne_reserved (c : WidthClass) : c.code ≠ 0b111#3 := fun h => by
  have h7 : c.index = 7 := (code_toNat c).symm.trans (congrArg BitVec.toNat h)
  have h6 := index_le_6 c
  omega

/-- Every code but the reserved one is a class's. -/
theorem exists_code_eq {b : BitVec 3} (h : b ≠ 0b111#3) : ∃ c : WidthClass, c.code = b := by
  have named : ∀ b : BitVec 3, b ≠ 0b111#3 → (WidthClass.ofCode b).map WidthClass.code = some b := by decide
  obtain ⟨c, -, hc⟩ := Option.map_eq_some_iff.mp (named b h)
  exact ⟨c, hc⟩

/-- Settles O5: a code other than 111 is that of a class, whose index it is; the index is at most 6. -/
theorem widthClassCodes : Obligations.WidthClassCodes := by
  refine ⟨fun b hb => ?_, rfl, fun c => ⟨code_ne_reserved c, ofCode_code c, rfl, index_le_6 c⟩⟩
  obtain ⟨c, rfl⟩ := exists_code_eq hb
  exact ⟨c, ofCode_code c, rfl, by rw [code_toNat]; rfl⟩

/-! ### The fault output -/

theorem outputs_fault_of_fault {s : State} {f : Option BlockFault} (h : s.fault = f) :
    s.outputs.fault = faultCode f :=
  congrArg faultCode h

/-- Settles O8: the output is the code of the recorded fault, and the code does not look at its info. -/
theorem faultOutputCodes : Obligations.FaultOutputCodes := fun _ =>
  ⟨outputs_fault_of_fault, outputs_fault_of_fault, fun _ => outputs_fault_of_fault, fun _ => outputs_fault_of_fault⟩

end Sys2Proof.Machine
end

section
/-!
PROOF. FETCH and SWAP by themselves (41_framebuffer R133, R135): the flow each takes, ended by `commit`; and what the
reachable-state table (10_state R34) says of the pending slot in the states that fetch and swap.
-/

namespace Sys2Proof.Machine

/-! ### The capacity test -/

/-- A frame is refused only above a finite NMAX (20_memory R52). -/
theorem fitsSlot_eq_false_iff {cfg : Config} {n : Nat} : fitsSlot cfg n = false ↔ ∃ m, cfg.nmax = some m ∧ m < n := by
  cases hm : cfg.nmax <;> simp [fitsSlot, hm]

/-! ### The source call -/

theorem srcCall_of_calls_succ {s t : State} (h : t.calls = s.calls + 1) :
    srcCall s t = some (s.cfg.handler, s.cfg.payload) := by
  simp [srcCall, h]

theorem srcCall_of_calls_eq {s t : State} (h : t.calls = s.calls) : srcCall s t = none := by
  simp [srcCall, h]

/-- FETCH calls the source exactly where the slot is empty, whatever the answer. -/
theorem calls_of_fetch {s t : State} (h : exec .fetch s = .next t) :
    (s.pend = none ∧ t.calls = s.calls + 1) ∨ (s.pend ≠ none ∧ t.calls = s.calls) := by
  have h : commit s (fetchFlow s) = .next t := h
  rcases fetchFlow_cases s with ⟨hp, e⟩ | ⟨hp, -, e⟩ | ⟨bs, hp, -, -, e⟩ | ⟨bs, hp, -, -, e⟩ <;> rw [e] at h <;> cases h
  · exact .inr ⟨hp, rfl⟩
  · exact .inl ⟨hp, rfl⟩
  · exact .inl ⟨hp, rfl⟩
  · exact .inl ⟨hp, rfl⟩

/-! ### The pending slot in the reachable-state table -/

theorem stInv_init {s : State} (hst : s.st = .init) :
    StInv s ↔ s.cur = none ∧ s.pend = none ∧ s.req = false ∧ s.cursor = 0 := by
  simp [StInv, hst]

theorem stInv_requesting {s : State} (hst : s.st = .requesting) :
    StInv s ↔ s.pend ≠ none ∧ s.req = true ∧ (s.cur = none → s.cursor = 0) ∧
      ∀ f, s.cur = some f → s.cursor = s.cfg.c.bytes * (beatCount s.cfg.c f.len - 1) ∧ f.lastOffset ≤ s.cursor := by
  simp [StInv, hst]

theorem stInv_streaming {s : State} (hst : s.st = .streaming) :
    StInv s ↔ s.pend = none ∧ s.req = false ∧ ∃ f, s.cur = some f ∧ s.cursor < f.prefetchOffset := by
  simp [StInv, hst]

/-- A state that fetches has room for the frame. -/
theorem State.Inv.pend_eq_none {s : State} (h : s.Inv) (hst : s.st = .init ∨ s.st = .streaming) : s.pend = none := by
  obtain ⟨-, table, -⟩ := h
  rcases hst with hst | hst
  · obtain ⟨-, hpend, -⟩ := (stInv_init hst).mp table
    exact hpend
  · exact ((stInv_streaming hst).mp table).1

/-- A state that swaps has a frame to swap in. -/
theorem State.Inv.pend_ne_none {s : State} (h : s.Inv) (hst : s.st = .requesting) : s.pend ≠ none := by
  obtain ⟨-, table, -⟩ := h
  exact ((stInv_requesting hst).mp table).1

/-! ### The obligations -/

/-- Settles O26: each outcome is the end of the step from the flow FETCH takes there, and the call is counted exactly
where the slot is empty. -/
theorem fetchFillsPending : Obligations.FetchFillsPending := by
  refine ⟨fun s bs hp ha hn => congrArg (commit s) (fetchFlow_frame hp ha hn), fun s hp => ?_,
    fun s hp ha => congrArg (commit s) (fetchFlow_sourceError hp ha),
    fun s bs hp ha hn => congrArg (commit s) (fetchFlow_tooLong hp ha hn),
    fun cfg n => fitsSlot_eq_false_iff, fun s t h => ?_, fun s => State.Inv.pend_eq_none⟩
  · obtain ⟨g, hg⟩ := Option.ne_none_iff_exists'.mp hp
    exact congrArg (commit s) (fetchFlow_occupied hg)
  · rcases calls_of_fetch h with ⟨hp, hcalls⟩ | ⟨hp, hcalls⟩
    · exact ⟨fun _ => srcCall_of_calls_succ hcalls, fun hne => absurd hp hne⟩
    · exact ⟨fun hnone => absurd hnone hp, fun _ => srcCall_of_calls_eq hcalls⟩

/-- Settles O27: each outcome is the end of the step from the flow SWAP takes there. -/
theorem swapPromotesPending : Obligations.SwapPromotesPending :=
  ⟨fun s _ hp => congrArg (commit s) (swapFlow_some hp), fun s hp => congrArg (commit s) (swapFlow_none hp),
    fun _ => State.Inv.pend_ne_none⟩

end Sys2Proof.Machine
end

section
/-!
PROOF. Which arm a clock edge runs, and what of the edge it reads (42_framestreamer R150, R151, R162, R163). The step is
said once per case of the selection (`step_reset` to `step_unrecognised`); the statements about `ack` and about inactive
cycles follow from it.
-/

namespace Sys2Proof.Machine

/-! ### The step, by what the edge selects -/

theorem step_of_selected {s : State} {i : Instr} (h : s.selected = .op i) : step s = exec i s.tick := by
  simp only [step, h]

/-- RESET ignores its operands, the other bits of the control word. -/
theorem step_reset {s : State} (hrst : s.edgeIn.rst = true) (flt : Bool) (sel : BitVec 4) :
    step s = exec (.reset flt sel) s.tick :=
  (step_of_selected (selected_reset hrst)).trans rfl

theorem step_faulted {s : State} (hrst : s.edgeIn.rst = false) (hf : s.fault ≠ none) : step s = .next s.tick :=
  step_of_selected (selected_faulted hrst hf)

theorem step_idle {s : State} (hrst : s.edgeIn.rst = false) (hf : s.fault = none) (ha : s.edgeIn.avail = false) :
    step s = .next s.tick :=
  step_of_selected (selected_idle hrst hf ha)

theorem step_active {s : State} (hrst : s.edgeIn.rst = false) (hf : s.fault = none) (ha : s.edgeIn.avail = true)
    (hst : s.st.recognised = true) : step s = exec (armOf s.st s.edgeIn.ack) s.tick :=
  step_of_selected ((selected_active hrst hf ha).trans (if_pos hst))

theorem step_unrecognised {s : State} (hrst : s.edgeIn.rst = false) (hf : s.fault = none)
    (ha : s.edgeIn.avail = true) (hst : s.st.recognised = false) :
    step s = .next { s.tick with fault := some (.invariantFailure .unrecognisedState) } := by
  have sel : s.selected = .unrecognised := by rw [selected_active hrst hf ha, hst]; rfl
  simp only [step, sel]
  rfl

/-- Settles O10: the cases of the selection, with the arm of each state. -/
theorem stepChoosesArm : Obligations.StepChoosesArm := by
  refine fun s => ⟨step_reset, step_faulted, step_idle, fun hrst hf ha => ?_⟩
  have arm {st : St} (hst : s.st = st) (hr : st.recognised = true) :
      step s = exec (armOf st s.edgeIn.ack) s.tick := by
    subst hst; exact step_active hrst hf ha hr
  refine ⟨fun hst => arm hst rfl, fun hst => ?_, fun hst => arm hst rfl, fun hst => arm hst rfl,
    fun n hst => step_unrecognised hrst hf ha (by rw [hst]; rfl)⟩
  exact (arm hst rfl).trans (apply_ite (exec · s.tick) _ _ _)

/-- Settles O12: an active edge raises, and an edge with `avail = 0` is idle there as in every state. -/
theorem unrecognisedStateAborts : Obligations.UnrecognisedStateAborts :=
  fun _ _ hst hrst hf => ⟨fun ha => step_unrecognised hrst hf ha (by rw [hst]; rfl), step_idle hrst hf⟩

/-! ### The acknowledgement -/

/-- Only the arm of REQUESTING depends on `ack`. -/
theorem exec_armOf_ack {st : St} (hst : st ≠ .requesting) (a b : Bool) (s : State) :
    exec (armOf st a) s = exec (armOf st b) s := by
  cases st with
  | requesting => exact absurd rfl hst
  | init => rfl
  | streaming => rfl
  | draining => rfl
  | unused => rfl

/-- Two states whose edges differ in `ack` only, outside an active step in REQUESTING: both steps are the same case of
the selection, and no case but the arm of REQUESTING looks at `ack`. -/
theorem step_eq_of_ack_unread {s t : State} (htick : s.tick = t.tick) (hrst : s.edgeIn.rst = t.edgeIn.rst)
    (havail : s.edgeIn.avail = t.edgeIn.avail) (h : s.st ≠ .requesting ∨ s.active = false) : step s = step t := by
  have hst : s.st = t.st := (congrArg State.st htick :)
  have hfault : s.fault = t.fault := (congrArg State.fault htick :)
  cases hr : s.edgeIn.rst with
  | true => rw [step_reset hr false 0, step_reset (hrst ▸ hr) false 0, htick]
  | false =>
    by_cases hf : s.fault = none
    · cases ha : s.edgeIn.avail with
      | false => rw [step_idle hr hf ha, step_idle (hrst ▸ hr) (hfault ▸ hf) (havail ▸ ha), htick]
      | true =>
        cases hu : s.st.recognised with
        | true =>
          have hreq : s.st ≠ .requesting := h.resolve_right (by simp [State.active, State.activeAt, hr, hf, ha])
          rw [step_active hr hf ha hu, step_active (hrst ▸ hr) (hfault ▸ hf) (havail ▸ ha) (hst ▸ hu), htick, ← hst]
          exact exec_armOf_ack hreq _ _ _
        | false =>
          rw [step_unrecognised hr hf ha hu, step_unrecognised (hrst ▸ hr) (hfault ▸ hf) (havail ▸ ha) (hst ▸ hu),
            htick]
    · rw [step_faulted hr hf, step_faulted (hrst ▸ hr) (hfault ▸ hf), htick]

/-- Settles O13: flipping `ack` leaves what the step reads. -/
theorem ackReadOnlyInRequesting : Obligations.AckReadOnlyInRequesting :=
  fun s e rest => step_eq_of_ack_unread (s := s.withEdges (e :: rest))
    (t := s.withEdges ({ e with ack := !e.ack } :: rest)) rfl rfl rfl

/-! ### The inactive cycle -/

/-- A step of no emitting operation emits no beat. -/
theorem emitted_of_selectsBeat_false {s : State} (h : s.selectsBeat = false) : emitted s = none := by
  cases hs : step s <;> simp [emitted, hs, h]

theorem selectsBeat_of_selected {s : State} {i : Instr} (h : s.selected = .op i) : s.selectsBeat = emits i := by
  simp only [State.selectsBeat, h]

/-- Settles O17: IDLE writes nothing, and it is the operation of an edge with `avail = 0`, which emits no beat. -/
theorem idleHoldsEverything : Obligations.IdleHoldsEverything :=
  ⟨fun _ _ _ => rfl, fun _ hrst hf ha => ⟨step_idle hrst hf ha,
    emitted_of_selectsBeat_false (selectsBeat_of_selected (selected_idle hrst hf ha))⟩⟩

/-- An edge that is not active selects RESET, FAULTED or IDLE. -/
theorem selected_of_inactive {s : State} (h : s.active = false) :
    (∃ flt sel, s.selected = .op (.reset flt sel)) ∨ (∃ sel, s.selected = .op (.faulted sel)) ∨
    ∃ ack st, s.selected = .op (.idle ack st) := by
  cases hr : s.edgeIn.rst with
  | true => exact .inl ⟨_, _, selected_reset hr⟩
  | false =>
    by_cases hf : s.fault = none
    · have ha : s.edgeIn.avail = false := by simpa [State.active, State.activeAt, hr, hf] using h
      exact .inr (.inr ⟨_, _, selected_idle hr hf ha⟩)
    · exact .inr (.inl ⟨_, selected_faulted hr hf⟩)

end Sys2Proof.Machine
end

section
/-!
PROOF. The sub-operations and the arms that fetch (42_framestreamer R152 to R159). The three faults of a step that
fetches are said once (`FetchFaults`), for a fetch that opens an arm and for the one in the tail that REQ_SWAP and
STREAM share (`beatDecideNext`); each statement then reads its outcomes off the flows.
-/

namespace Sys2Proof.Machine

/-! ### The next state by the thresholds -/

theorem stAfterBeat_last {f : Frame} {n : Nat} (hl : f.lastOffset ≤ n) : stAfterBeat f n = .requesting := by
  simp [stAfterBeat, isLastBeat, hl]

theorem stAfterBeat_early {f : Frame} {n : Nat} (hp : n < f.prefetchOffset) :
    stAfterBeat f n = if f.lastOffset ≤ n then .requesting else .streaming := by
  simp [stAfterBeat, isLastBeat, prefetchDue, Nat.not_le.mpr hp]

theorem stAfterBeat_due {f : Frame} {n : Nat} (hp : f.prefetchOffset ≤ n) :
    stAfterBeat f n = if f.lastOffset ≤ n then .requesting else .draining := by
  simp [stAfterBeat, isLastBeat, prefetchDue, hp]

/-- No beat is followed by INIT. -/
theorem stAfterBeat_ne_init (f : Frame) (n : Nat) : stAfterBeat f n ≠ .init := by
  unfold stAfterBeat
  split_ifs <;> simp

/-! ### BEAT, IDLE_BEAT and NEXT_STATE -/

/-- Settles O28: with a current frame the flow of BEAT is the write of the beat it forms. -/
theorem beatFormsFromCursor : Obligations.BeatFormsFromCursor :=
  fun s _ _ hc => congrArg (commit s) (beatFlow_some hc)

/-- Settles O29: IDLE_BEAT is the one write of the idle beat. -/
theorem idleBeatDrivesNoBeat : Obligations.IdleBeatDrivesNoBeat := fun _ => rfl

theorem exec_nextState {s : State} {f : Frame} (hc : s.cur = some f) :
    exec .nextState s = .next { s with
      out := { s.out with eof := decide (f.lastOffset ≤ s.cursor), val := true }, st := stAfterBeat f s.cursor } :=
  congrArg (commit s) (nextStateFlow_some hc)

/-- Settles O31: the `eof` test decides first, then the prefetch threshold. -/
theorem nextStateRule : Obligations.NextStateRule := by
  refine fun s f hc => ⟨fun hl => ?_, fun hl hp => ?_, fun hl hp => ?_⟩ <;> rw [exec_nextState hc]
  · rw [decide_eq_true hl, stAfterBeat_last hl]
  · rw [decide_eq_false (Nat.not_le.mpr hl), stAfterBeat_due hp, if_neg (Nat.not_le.mpr hl)]
  · rw [decide_eq_false (Nat.not_le.mpr hl), stAfterBeat_early hp, if_neg (Nat.not_le.mpr hl)]

/-! ### The faults of a step that fetches -/

/-- The end of a step from `s` that fetches with the pending slot at `pend`: each failing check of FETCH leaves `s` but
for the fault and the answer it used up (60_exceptions R204). -/
structure FetchFaults (s : State) (pend : Option Frame) (o : Host.Outcome State Fault Refusal) : Prop where
  occupied : pend ≠ none → o = .next { s with fault := some (.invariantFailure .pendingOccupied) }
  sourceError : pend = none → s.nextAnswer = .sourceError →
    o = .next { s with fault := some .sourceError, answers := s.answers.tail, calls := s.calls + 1 }
  tooLong : ∀ bs, pend = none → s.nextAnswer = .frame bs → fitsSlot s.cfg bs.length = false →
    o = .next { s with fault := some (.frameTooLong bs.length), answers := s.answers.tail, calls := s.calls + 1 }

/-- A fetch from the state in which the step began, whatever follows it. -/
theorem fetchFaults_fetchFlow_andThen (s : State) (k : State → Flow) :
    FetchFaults s s.pend (commit s ((fetchFlow s).andThen k)) where
  occupied hp := by
    obtain ⟨g, hg⟩ := Option.ne_none_iff_exists'.mp hp
    rw [fetchFlow_occupied hg]
    rfl
  sourceError hp ha := by rw [fetchFlow_sourceError hp ha]; rfl
  tooLong bs hp ha hn := by rw [fetchFlow_tooLong hp ha hn]; rfl

/-- A step that has raised leaves of its writes only what the source is left with. -/
theorem commit_raised_of_source {s a : State} {f : BlockFault} {as : List Answer} {n : Nat} (ha : a.answers = as)
    (hc : a.calls = n) : commit s (.raised f a) = .next { s with fault := some f, answers := as, calls := n } := by
  subst ha hc
  rfl

/-- The fetch of the common tail, in a step from `s` that has come to `u` without a call. -/
theorem fetchFaults_beatDecideNext {s u : State} {f : Frame} (b : Bool) (hcfg : u.cfg = s.cfg)
    (hans : u.answers = s.answers) (hcalls : u.calls = s.calls) (hc : u.cur = some f)
    (hp : f.prefetchOffset ≤ u.cursor) : FetchFaults s u.pend (commit s (beatDecideNext b u)) := by
  obtain ⟨occupied, sourceError, tooLong⟩ := beatDecideNext_raised (b := b) hc hp
  rw [nextAnswer_congr hans hcalls] at sourceError tooLong
  rw [hans, hcalls] at occupied sourceError tooLong
  rw [hcfg] at tooLong
  refine ⟨fun hf => ?_, fun hf ha => ?_, fun bs hf ha hn => ?_⟩
  · obtain ⟨a, e, ha, hc⟩ := occupied hf
    exact e ▸ commit_raised_of_source ha hc
  · obtain ⟨a, e, ha, hc⟩ := sourceError hf ha
    exact e ▸ commit_raised_of_source ha hc
  · obtain ⟨a, e, ha, hc⟩ := tooLong bs hf ha hn
    exact e ▸ commit_raised_of_source ha hc

/-! ### REQ_DECIDE -/

theorem exec_reqDecide_due {s : State} {f : Frame} (hc : s.cur = some f) (hp : f.prefetchOffset ≤ s.cursor) :
    exec .reqDecide s = commit s ((fetchFlow s).andThen fun s => .go (s.setReq true)) :=
  congrArg (commit s) (reqDecideFlow_due hc hp)

/-- REQ_DECIDE at or past the threshold takes the faults of its fetch. -/
theorem fetchFaults_reqDecide {s : State} {f : Frame} (hc : s.cur = some f) (hp : f.prefetchOffset ≤ s.cursor) :
    FetchFaults s s.pend (exec .reqDecide s) :=
  exec_reqDecide_due hc hp ▸ fetchFaults_fetchFlow_andThen s _

/-- Settles O30: below the threshold the flow is the write of `req`; at or past it, a fetch and then that write. -/
theorem requestDecidedAtThreshold : Obligations.RequestDecidedAtThreshold := by
  refine ⟨fun s f hc hp => congrArg (commit s) (reqDecideFlow_early hc hp), fun s f bs hc hp he ha hn => ?_,
    fun s f hc hp => (fetchFaults_reqDecide hc hp).occupied,
    fun s f hc hp => (fetchFaults_reqDecide hc hp).sourceError,
    fun s f bs hc hp => (fetchFaults_reqDecide hc hp).tooLong bs⟩
  rw [exec_reqDecide_due hc hp, fetchFlow_frame he ha hn]
  rfl

/-! ### What a completed arm leaves -/

/-- A property that a flow has where it goes on, and that a fault has, holds at the end of the step. -/
theorem of_commit_eq_next {P : State → Prop} {s t : State} {x : Flow} (h : commit s x = .next t)
    (go : ∀ u, x = .go u → P u) (fault : ∀ f a, P (takeFault s f a)) : P t := by
  rcases commit_eq_next.mp h with hgo | ⟨f, a, -, rfl⟩
  · exact go t hgo
  · exact fault f a

theorem initFlow_go_bits_st {s t : State} (h : initFlow s = .go t) : t.bits = s.bits ∧ t.st = .requesting := by
  rcases initFlow_cases s with ⟨-, e⟩ | ⟨-, -, e⟩ | ⟨bs, -, -, -, e⟩ | ⟨bs, -, -, -, e⟩ <;> cases e.symm.trans h
  exact ⟨rfl, rfl⟩

theorem beatDecideNext_go_bits_st {s t : State} {f : Frame} {b : Bool} (hc : s.cur = some f)
    (h : beatDecideNext b s = .go t) : t.bits = s.bits ∧ t.st = stAfterBeat f s.cursor := by
  rcases beatDecideNext_cases b hc with ⟨-, e⟩ | ⟨-, ⟨bs, -, -, -, e⟩ | ⟨-, a, e, -⟩ | ⟨-, -, a, e, -⟩ |
    ⟨bs, -, -, -, a, e, -⟩⟩ <;> cases e.symm.trans h
  · exact ⟨rfl, rfl⟩
  · exact ⟨rfl, rfl⟩

theorem reqSwapFlow_go_st_ne_init {s t : State} (h : reqSwapFlow s = .go t) : t.st ≠ .init := by
  cases hp : s.pend with
  | none => cases (reqSwapFlow_none hp).symm.trans h
  | some f =>
    obtain ⟨-, hst⟩ := beatDecideNext_go_bits_st rfl ((reqSwapFlow_some hp).symm.trans h)
    exact hst ▸ stAfterBeat_ne_init _ _

theorem streamFlow_go_bits_st {s t : State} (h : streamFlow s = .go t) : t.bits = s.bits ∧ t.st ≠ .init := by
  cases hc : s.cur with
  | none => cases (streamFlow_none hc).symm.trans h
  | some f =>
    by_cases hl : f.lastOffset ≤ s.cursor
    · cases (streamFlow_past hc hl).symm.trans h
    · have tail := (streamFlow_some hc (Nat.not_le.mp hl)).symm.trans h
      obtain ⟨hbits, hst⟩ := beatDecideNext_go_bits_st (by exact hc) tail
      exact ⟨hbits, hst ▸ stAfterBeat_ne_init _ _⟩

theorem drainFlow_go_bits_st {s t : State} (h : drainFlow s = .go t) : t.bits = s.bits ∧ t.st ≠ .init := by
  obtain ⟨f, -, rfl⟩ := drainFlow_go h
  exact ⟨rfl, stAfterBeat_ne_init _ _⟩

/-- Only a reset enters INIT. -/
theorem step_st_init {s t : State} (h : step s = .next t) : t.st = .init → s.st = .init ∨ s.edgeIn.rst = true := by
  rcases step_cases s with ⟨hrst, -⟩ | ⟨-, -, e⟩ | ⟨-, -, -, e⟩ | ⟨-, -, -, arm⟩
  · exact fun _ => .inr hrst
  · cases e.symm.trans h; exact .inl
  · cases e.symm.trans h; exact .inl
  have keeps {x : Flow} (e : step s = commit s.tick x) (go : ∀ u, x = .go u → u.st ≠ .init) :
      t.st = .init → s.st = .init :=
    of_commit_eq_next (P := fun u => u.st = .init → s.st = .init) (e.symm.trans h)
      (fun u hu ht => absurd ht (go u hu)) fun _ _ => id
  rcases arm with ⟨hst, -⟩ | ⟨-, -, e⟩ | ⟨-, -, e⟩ | ⟨-, e⟩ | ⟨-, e⟩ | ⟨n, -, e⟩
  · exact fun _ => .inl hst
  · cases e.symm.trans h; exact .inl
  · exact fun ht => .inl (keeps e (fun u => reqSwapFlow_go_st_ne_init) ht)
  · exact fun ht => .inl (keeps e (fun u hu => (streamFlow_go_bits_st hu).2) ht)
  · exact fun ht => .inl (keeps e (fun u hu => (drainFlow_go_bits_st hu).2) ht)
  · cases e.symm.trans h; exact .inl

/-- Only REQ_SWAP and a reset write `bits`. -/
theorem step_bits_writers {s t : State} (h : step s = .next t) (hne : t.bits ≠ s.bits) :
    s.selected = .op .reqSwap ∨ s.edgeIn.rst = true := by
  rcases step_cases s with ⟨hrst, -⟩ | ⟨-, -, e⟩ | ⟨-, -, -, e⟩ | ⟨hrst, hf, ha, arm⟩
  · exact .inr hrst
  · cases e.symm.trans h; exact absurd rfl hne
  · cases e.symm.trans h; exact absurd rfl hne
  have keeps {x : Flow} (e : step s = commit s.tick x) (go : ∀ u, x = .go u → u.bits = s.bits) : t.bits = s.bits :=
    of_commit_eq_next (P := fun u => u.bits = s.bits) (e.symm.trans h) go fun _ _ => rfl
  rcases arm with ⟨-, e⟩ | ⟨-, -, e⟩ | ⟨hst, hack, -⟩ | ⟨-, e⟩ | ⟨-, e⟩ | ⟨n, -, e⟩
  · exact absurd (keeps e fun u hu => (initFlow_go_bits_st hu).1) hne
  · cases e.symm.trans h; exact absurd rfl hne
  · have sel := selected_active hrst hf ha
    exact .inl (by simpa [hst, hack, St.recognised, armOf] using sel)
  · exact absurd (keeps e fun u hu => (streamFlow_go_bits_st hu).1) hne
  · exact absurd (keeps e fun u hu => (drainFlow_go_bits_st hu).1) hne
  · cases e.symm.trans h; exact absurd rfl hne

/-! ### INIT -/

/-- INIT opens with its fetch. -/
theorem exec_init (ack : Bool) (s : State) :
    exec (.init ack) s = commit s ((fetchFlow s).andThen fun s =>
      (idleBeatFlow (s.setReq true)).andThen fun s => .go (s.setSt .requesting)) := rfl

/-- Settles O33: INIT opens with a fetch and takes its faults; with a frame the rest are writes. -/
theorem initMakesFirstFetch : Obligations.InitMakesFirstFetch := by
  have faults (s : State) (ack : Bool) : FetchFaults s s.pend (exec (.init ack) s) :=
    fetchFaults_fetchFlow_andThen s _
  refine ⟨fun s ack bs he ha hn => ?_, fun s ack => (faults s ack).occupied, fun s ack => (faults s ack).sourceError,
    fun s ack => (faults s ack).tooLong, fun s hinv hst => hinv.pend_eq_none (.inl hst), fun s t => step_st_init⟩
  rw [exec_init, fetchFlow_frame he ha hn]
  rfl

/-! ### REQ_HOLD -/

theorem active_of_selected_reqHold {s : State} (h : s.selected = .op .reqHold) : s.active = true := by
  refine Bool.of_not_eq_false fun hinactive => ?_
  rcases selected_of_inactive hinactive with ⟨flt, sel, e⟩ | ⟨sel, e⟩ | ⟨ack, st, e⟩ <;> cases h.symm.trans e

/-- Settles O34: REQ_HOLD is the one write of the idle beat, and as an active step that emits no beat it is a bubble
once a frame is current. -/
theorem holdKeepsRequest : Obligations.HoldKeepsRequest := by
  refine ⟨fun s => rfl, fun s hinv hst => ?_, fun s hsel hcur => ?_⟩
  · obtain ⟨-, table, -⟩ := hinv
    exact ((stInv_requesting hst).mp table).2.1
  · have silent : emitted s = none := emitted_of_selectsBeat_false (selectsBeat_of_selected hsel)
    simp [isBubble, active_of_selected_reqHold hsel, silent, Option.isSome_iff_ne_none.mpr hcur]

/-! ### The completed tail of REQ_SWAP and STREAM -/

/-- The tail below the threshold, in a step from `s`. -/
theorem commit_beatDecideNext_early (s : State) {u : State} {f : Frame} (b : Bool) (hc : u.cur = some f)
    (hp : u.cursor < f.prefetchOffset) :
    commit s (beatDecideNext b u) = .next { u with
      req := false, out := emittedBeat u.cfg f u.cursor b,
      st := if f.lastOffset ≤ u.cursor then .requesting else .streaming } := by
  rw [beatDecideNext_early hc hp, ← stAfterBeat_early hp]
  rfl

/-- The tail at or past the threshold, with a frame to be had. -/
theorem commit_beatDecideNext_fetch (s : State) {u : State} {f : Frame} {bs : List Byte} (b : Bool)
    (hc : u.cur = some f) (hp : f.prefetchOffset ≤ u.cursor) (he : u.pend = none) (ha : u.nextAnswer = .frame bs)
    (hn : fitsSlot u.cfg bs.length = true) :
    commit s (beatDecideNext b u) = .next { u.consumeAnswer with
      req := true, pend := some (threshFrame u.cfg.c bs), out := emittedBeat u.cfg f u.cursor b,
      st := if f.lastOffset ≤ u.cursor then .requesting else .draining } := by
  rw [beatDecideNext_fetch hc hp he ha hn, ← stAfterBeat_due hp]
  rfl

/-! ### REQ_SWAP -/

theorem exec_reqSwap {s : State} {f : Frame} (hp : s.pend = some f) :
    exec .reqSwap s = commit s (beatDecideNext true (swapState s f)) :=
  congrArg (commit s) (reqSwapFlow_some hp)

/-- REQ_SWAP that must fetch on the first beat: its slot is empty after the swap. -/
theorem fetchFaults_reqSwap {s : State} {f : Frame} (hp : s.pend = some f) (h0 : f.prefetchOffset = 0) :
    FetchFaults s none (exec .reqSwap s) :=
  exec_reqSwap hp ▸ fetchFaults_beatDecideNext (u := swapState s f) true rfl rfl rfl rfl h0.le

/-- Settles O35: after the swap the common tail runs with the new frame at cursor 0. -/
theorem swapEmitsFirstBeat : Obligations.SwapEmitsFirstBeat := by
  refine ⟨fun s f hp h0 => ?_, fun s f bs hp h0 ha hn => ?_, fun s hp => congrArg (commit s) (reqSwapFlow_none hp),
    fun s f hp h0 => (fetchFaults_reqSwap hp h0).sourceError rfl,
    fun s f bs hp h0 => (fetchFaults_reqSwap hp h0).tooLong bs rfl,
    fun s => State.Inv.pend_ne_none, fun s t => step_bits_writers⟩
  · exact (exec_reqSwap hp).trans (commit_beatDecideNext_early s true rfl h0)
  · exact (exec_reqSwap hp).trans (commit_beatDecideNext_fetch s true rfl h0.le rfl ha hn)

/-! ### STREAM -/

theorem exec_stream {s : State} {f : Frame} (ack : Bool) (hc : s.cur = some f) (hl : s.cursor < f.lastOffset) :
    exec (.stream ack) s =
      commit s (beatDecideNext false (s.setCursor (min (s.cursor + s.cfg.c.bytes) f.len))) :=
  congrArg (commit s) (streamFlow_some hc hl)

/-- STREAM whose new cursor is at or past the threshold ends as its fetch does. -/
theorem fetchFaults_stream {s : State} {f : Frame} (ack : Bool) (hc : s.cur = some f) (hl : s.cursor < f.lastOffset)
    (hp : f.prefetchOffset ≤ min (s.cursor + s.cfg.c.bytes) f.len) : FetchFaults s s.pend (exec (.stream ack) s) :=
  exec_stream ack hc hl ▸
    fetchFaults_beatDecideNext (u := s.setCursor (min (s.cursor + s.cfg.c.bytes) f.len)) false rfl rfl rfl hc hp

/-- A state that streams has its cursor more than `2W` bytes before the end of a current frame. -/
theorem State.Inv.cursor_add_lt {s : State} (h : s.Inv) (hst : s.st = .streaming) :
    ∃ f, s.cur = some f ∧ f.lastOffset = f.len - s.cfg.c.bytes ∧ s.cursor + 2 * s.cfg.c.bytes < f.len := by
  obtain ⟨memory, table, -⟩ := h
  obtain ⟨-, -, f, hc, hp⟩ := (stInv_streaming hst).mp table
  obtain ⟨⟨last, prefetch⟩, -⟩ := slotWf_some.mp (hc ▸ (Memory.wf_iff.mp memory).1)
  exact ⟨f, hc, last, by omega⟩

/-- Settles O36: after the advance the common tail runs with the current frame at the new cursor. -/
theorem streamAdvancesAndDecides : Obligations.StreamAdvancesAndDecides := by
  refine ⟨fun s ack f n hc hl hn hp => ?_, fun s ack f n bs hc hl hn hp he ha hfit => ?_,
    fun s ack hc => congrArg (commit s) (streamFlow_none hc),
    fun s ack f hc hl => congrArg (commit s) (streamFlow_past hc hl), fun s ack f hc hl hp => ?_, fun s hinv hst => ?_⟩
  · subst hn
    exact (exec_stream ack hc hl).trans (commit_beatDecideNext_early s false hc hp)
  · subst hn
    exact (exec_stream ack hc hl).trans (commit_beatDecideNext_fetch s false hc hp he ha hfit)
  · have faults := fetchFaults_stream ack hc hl hp
    exact ⟨faults.occupied, faults.sourceError, faults.tooLong⟩
  · obtain ⟨f, hc, last, room⟩ := hinv.cursor_add_lt hst
    exact ⟨f, hc, by omega, by omega⟩

end Sys2Proof.Machine
end

section
/-!
PROOF. Faults (60_exceptions). How a flow ends, against the list of checks it is to make, is said once for each
operation (`exec_endsWith`): it raises the first check of `firstFault` that fails, for a cause the source gave or by an
invariant check before any call, or it goes on with `fault` unchanged. The statements about the steps that raise follow.
-/

namespace Sys2Proof.Machine

/-! ### A recorded fault -/

theorem faultCode_some_ne (f : BlockFault) : faultCode (some f) ≠ 0b00#2 := by
  cases f <;> simp [faultCode]

/-- Settles O16: the step only uses up the edge, which no output shows, and no fault has the code 00. -/
theorem faultedHoldsEverything : Obligations.FaultedHoldsEverything := by
  refine ⟨fun s sel => rfl, fun s hf hrst => step_faulted hrst hf, fun s t hf hrst h => ?_⟩
  cases (step_faulted hrst hf).symm.trans h
  obtain ⟨f, hf⟩ := Option.ne_none_iff_exists'.mp hf
  exact ⟨rfl, rfl, rfl, outputs_fault_of_fault (s := s.tick) hf ▸ faultCode_some_ne f⟩

/-! ### How a flow ends -/

/-- Fault `f` was raised in state `a` of a flow from `s`: what it says of the source's answer, and what is left of the
source (60_exceptions R201 to R204). -/
inductive RaisedFrom (s : State) : BlockFault → State → Prop
  | invariant (r : Reason) {a : State} : a.answers = s.answers → a.calls = s.calls →
      RaisedFrom s (.invariantFailure r) a
  | sourceError {a : State} : s.nextAnswer = .sourceError → a.answers = s.answers.tail → a.calls = s.calls + 1 →
      RaisedFrom s .sourceError a
  | tooLong (bs : List Byte) {a : State} : s.nextAnswer = .frame bs → fitsSlot s.cfg bs.length = false →
      a.answers = s.answers.tail → a.calls = s.calls + 1 → RaisedFrom s (.frameTooLong bs.length) a

/-- A flow from `s` raises the fault it is to raise, if any; with none due it leaves `fault` or stops. -/
inductive EndsWith (s : State) : Option BlockFault → Flow → Prop
  | goes {t : State} : t.fault = s.fault → EndsWith s none (.go t)
  | raises {f : BlockFault} {a : State} : RaisedFrom s f a → EndsWith s (some f) (.raised f a)
  | stops : EndsWith s none .emptyRead

/-- What an operation's writes before its fetch leave: all that its fetch reads but the slot, and `fault`. -/
structure BeforeFetch (s u : State) : Prop where
  cfg : u.cfg = s.cfg
  fault : u.fault = s.fault
  answers : u.answers = s.answers
  calls : u.calls = s.calls

theorem BeforeFetch.fetchFault_eq {s u : State} (same : BeforeFetch s u) (full : Bool) :
    fetchFault u full = fetchFault s full := by
  simp only [fetchFault, nextAnswer_congr same.answers same.calls, same.cfg]

theorem RaisedFrom.of_beforeFetch {s u a : State} {f : BlockFault} (same : BeforeFetch s u) (h : RaisedFrom u f a) :
    RaisedFrom s f a := by
  obtain ⟨hcfg, -, hans, hcalls⟩ := same
  have hnext := nextAnswer_congr hans hcalls
  cases h with
  | invariant r ha hc => exact .invariant r (ha.trans hans) (hc.trans hcalls)
  | sourceError hs ha hc => exact .sourceError (hnext ▸ hs) (hans ▸ ha) (hcalls ▸ hc)
  | tooLong bs hs hn ha hc => exact .tooLong bs (hnext ▸ hs) (hcfg ▸ hn) (hans ▸ ha) (hcalls ▸ hc)

theorem EndsWith.of_beforeFetch {s u : State} {o : Option BlockFault} {x : Flow} (same : BeforeFetch s u)
    (h : EndsWith u o x) : EndsWith s o x := by
  cases h with
  | goes hf => exact .goes (hf.trans same.fault)
  | raises hr => exact .raises (hr.of_beforeFetch same)
  | stops => exact .stops

/-- A flow followed by operations that make no check has the checks of the flow. -/
theorem EndsWith.andThen {s : State} {o : Option BlockFault} {x : Flow} {k : State → Flow} (h : EndsWith s o x)
    (hk : ∀ t, t.fault = s.fault → EndsWith s none (k t)) : EndsWith s o (x.andThen k) := by
  cases h with
  | goes hf => exact hk _ hf
  | raises hr => exact .raises hr
  | stops => exact .stops

/-- An invariant check at the start of an operation. -/
theorem endsWith_invariantFailure (s : State) (r : Reason) :
    EndsWith s (some (.invariantFailure r)) (.raised (.invariantFailure r) s) :=
  .raises (.invariant r rfl rfl)

/-- The fault a step that ends so records, or else the one it began with. -/
theorem EndsWith.fault_of_commit {s t : State} {o : Option BlockFault} {x : Flow} (h : EndsWith s o x)
    (ht : commit s x = .next t) : t.fault = o.or s.fault := by
  cases h with
  | goes hf => cases ht; exact hf
  | raises => cases ht; rfl
  | stops => cases ht

/-! ### How each operation's flow ends -/

theorem endsWith_fetchFlow (s : State) : EndsWith s (fetchFault s s.pend.isSome) (fetchFlow s) := by
  rcases fetchFlow_cases s with ⟨hp, e⟩ | ⟨hp, ha, e⟩ | ⟨bs, hp, ha, hn, e⟩ | ⟨bs, hp, ha, hn, e⟩ <;> rw [e]
  · simpa [fetchFault, Option.isSome_iff_ne_none.mpr hp] using endsWith_invariantFailure s .pendingOccupied
  · simpa [fetchFault, hp, ha] using EndsWith.raises (.sourceError ha rfl rfl)
  · simpa [fetchFault, hp, ha, hn] using
      EndsWith.goes (s := s) (t := s.consumeAnswer.setPend (threshFrame s.cfg.c bs)) rfl
  · simpa [fetchFault, hp, ha, hn] using EndsWith.raises (.tooLong bs ha hn rfl rfl)

theorem endsWith_swapFlow (s : State) : EndsWith s (firstFault .swap s) (swapFlow s) := by
  cases hp : s.pend with
  | none => simpa [firstFault, hp, swapFlow_none hp] using endsWith_invariantFailure s .pendingEmpty
  | some f => simpa [firstFault, hp, swapFlow_some hp] using EndsWith.goes (s.moveToCur_fault f)

theorem endsWith_beatFlow (b : Bool) (s : State) : EndsWith s none (beatFlow b s) := by
  cases hc : s.cur with
  | none => exact beatFlow_none hc ▸ .stops
  | some f => exact beatFlow_some hc ▸ .goes rfl

theorem endsWith_nextStateFlow {s u : State} (hf : u.fault = s.fault) : EndsWith s none (nextStateFlow u) := by
  cases hc : u.cur with
  | none => exact nextStateFlow_none hc ▸ .stops
  | some f => exact nextStateFlow_some hc ▸ .goes hf

/-- REQ_DECIDE, in a flow from `s` that has come to `u`: the checks of FETCH where the request is due. -/
theorem endsWith_reqDecideFlow {s u : State} {f : Frame} (same : BeforeFetch s u) (hc : u.cur = some f) :
    EndsWith s (if f.prefetchOffset ≤ u.cursor then fetchFault s u.pend.isSome else none) (reqDecideFlow u) := by
  by_cases hp : f.prefetchOffset ≤ u.cursor
  · rw [if_pos hp, reqDecideFlow_due hc hp, ← same.fetchFault_eq]
    exact ((endsWith_fetchFlow u).of_beforeFetch same).andThen fun t ht => .goes ht
  · rw [if_neg hp, reqDecideFlow_early hc (Nat.not_le.mp hp)]
    exact .goes same.fault

/-- The common tail of REQ_SWAP and STREAM has the checks of its REQ_DECIDE. -/
theorem endsWith_beatDecideNext {s u : State} {f : Frame} (b : Bool) (same : BeforeFetch s u) (hc : u.cur = some f) :
    EndsWith s (if f.prefetchOffset ≤ u.cursor then fetchFault s u.pend.isSome else none) (beatDecideNext b u) := by
  obtain ⟨hcfg, hfault, hans, hcalls⟩ := same
  have same : BeforeFetch s (u.setOut (formBeat u f b)) := ⟨hcfg, hfault, hans, hcalls⟩
  rw [beatDecideNext, beatFlow_some hc, Flow.andThen_go]
  exact (endsWith_reqDecideFlow same hc).andThen fun t => endsWith_nextStateFlow

theorem endsWith_reqDecide (s : State) : EndsWith s (firstFault .reqDecide s) (reqDecideFlow s) := by
  cases hc : s.cur with
  | none => simpa [firstFault, hc, reqDecideFlow_none hc] using EndsWith.stops
  | some f => simpa [firstFault, hc] using endsWith_reqDecideFlow ⟨rfl, rfl, rfl, rfl⟩ hc

theorem endsWith_reqSwapFlow (s : State) : EndsWith s (firstFault .reqSwap s) (reqSwapFlow s) := by
  cases hp : s.pend with
  | none => simpa [firstFault, hp, reqSwapFlow_none hp] using endsWith_invariantFailure s .pendingEmpty
  | some f =>
    have tail := endsWith_beatDecideNext (s := s) (u := swapState s f) true ⟨rfl, rfl, rfl, rfl⟩ rfl
    simpa [firstFault, hp, reqSwapFlow_some hp, swapState] using tail

theorem endsWith_streamFlow (ack : Bool) (s : State) : EndsWith s (firstFault (.stream ack) s) (streamFlow s) := by
  cases hc : s.cur with
  | none => simpa [firstFault, hc, streamFlow_none hc] using endsWith_invariantFailure s .noCurrent
  | some f =>
    by_cases hl : f.lastOffset ≤ s.cursor
    · simpa [firstFault, hc, hl, streamFlow_past hc hl] using endsWith_invariantFailure s .cursorOutOfRange
    · have tail := endsWith_beatDecideNext (s := s)
        (u := s.setCursor (advanceCursor s.cfg.c f.len s.cursor)) false ⟨rfl, rfl, rfl, rfl⟩ hc
      simpa [firstFault, hc, hl, streamFlow_some hc (Nat.not_le.mp hl), advanceCursor] using tail

theorem endsWith_drainFlow (ack : Bool) (s : State) : EndsWith s (firstFault (.drain ack) s) (drainFlow s) := by
  cases hc : s.cur with
  | none => simpa [firstFault, hc, drainFlow_none hc] using endsWith_invariantFailure s .noCurrent
  | some f =>
    by_cases hl : f.lastOffset ≤ s.cursor
    · simpa [firstFault, hc, hl, drainFlow_past hc hl] using endsWith_invariantFailure s .cursorOutOfRange
    · simpa [firstFault, hc, hl, drainFlow_some hc (Nat.not_le.mp hl)] using
        EndsWith.goes (s := s) (t := beatState s f (advanceCursor s.cfg.c f.len s.cursor) false) rfl

/-- Every operation but RESET is a flow that raises its first failing check. -/
theorem exec_endsWith (i : Instr) (s : State) (hi : ∀ flt sel, i ≠ .reset flt sel) :
    ∃ x, exec i s = commit s x ∧ EndsWith s (firstFault i s) x := by
  cases i
  case reset flt sel => exact absurd rfl (hi flt sel)
  case init => exact ⟨_, rfl, (endsWith_fetchFlow s).andThen fun t ht => .goes ht⟩
  case fetch => exact ⟨_, rfl, endsWith_fetchFlow s⟩
  case swap => exact ⟨_, rfl, endsWith_swapFlow s⟩
  case reqSwap => exact ⟨_, rfl, endsWith_reqSwapFlow s⟩
  case stream ack => exact ⟨_, rfl, endsWith_streamFlow ack s⟩
  case drain ack => exact ⟨_, rfl, endsWith_drainFlow ack s⟩
  case beat b => exact ⟨_, rfl, endsWith_beatFlow b s⟩
  case reqDecide => exact ⟨_, rfl, endsWith_reqDecide s⟩
  case nextState => exact ⟨_, rfl, endsWith_nextStateFlow rfl⟩
  -- The rest make no check: they write the output register or the tap, or nothing.
  all_goals exact ⟨.go _, rfl, .goes rfl⟩

/-! ### The first failing check -/

theorem exec_fault {i : Instr} {s t : State} (h : exec i s = .next t) (hi : ∀ flt sel, i ≠ .reset flt sel) :
    t.fault = (firstFault i s).or s.fault := by
  obtain ⟨x, e, hx⟩ := exec_endsWith i s hi
  exact hx.fault_of_commit (e.symm.trans h)

/-- Settles O39: the conditions before the arm are those of the step's selection, and each operation raises its first
failing check. -/
theorem firstFailingCheckIsRaised : Obligations.FirstFailingCheckIsRaised := by
  refine ⟨fun s t h => ⟨fun hrst => ?_, fun hrst hf => ?_, fun hrst hf ha => ?_, fun n hrst hf ha hst => ?_⟩,
    fun i s t h hi => ?_⟩
  · cases (step_reset hrst false 0).symm.trans h; rfl
  · cases (step_faulted hrst hf).symm.trans h; rfl
  · cases (step_idle hrst hf ha).symm.trans h; exact hf
  · cases (step_unrecognised hrst hf ha (by rw [hst]; rfl)).symm.trans h; rfl
  · have hfault := exec_fault h hi
    split
    · next f hfirst => rw [hfault, hfirst, Option.some_or]
    · next hfirst => rw [hfault, hfirst, Option.none_or]

/-! ### The step that raises -/

/-- A step that raises is an active one. -/
theorem edge_of_raised {s t : State} {f : BlockFault} (hs : s.fault = none) (h : step s = .next t)
    (ht : t.fault = some f) : s.edgeIn.rst = false ∧ s.edgeIn.avail = true := by
  obtain ⟨atReset, -, atIdle, -⟩ := firstFailingCheckIsRaised.1 s t h
  have hrst : s.edgeIn.rst = false := Bool.of_not_eq_true fun hr => by simp [atReset hr] at ht
  exact ⟨hrst, Bool.of_not_eq_false fun ha => by simp [atIdle hrst hs ha] at ht⟩

theorem armOf_ne_reset (st : St) (ack flt : Bool) (sel : BitVec 4) : armOf st ack ≠ .reset flt sel := by
  cases st <;> cases ack <;> simp [armOf]

/-- All a step that raises can be: the arm of its state, which raised its first failing check, or an unrecognised
state; its fault is taken from the state with the edge's inputs used up. -/
theorem step_raised {s t : State} {f : BlockFault} (hs : s.fault = none) (h : step s = .next t)
    (ht : t.fault = some f) :
    (∃ a, t = takeFault s.tick f a ∧ RaisedFrom s.tick f a) ∧
    (s.selected = .op (armOf s.st s.edgeIn.ack) ∧ firstFault (armOf s.st s.edgeIn.ack) s.tick = some f ∨
      f = .invariantFailure .unrecognisedState) := by
  obtain ⟨hrst, ha⟩ := edge_of_raised hs h ht
  cases hst : s.st.recognised with
  | true =>
    have sel := (selected_active hrst hs ha).trans (if_pos hst)
    obtain ⟨x, e, hx⟩ := exec_endsWith (armOf s.st s.edgeIn.ack) s.tick (armOf_ne_reset _ _)
    have arm : commit s.tick x = .next t := e.symm.trans ((step_of_selected sel).symm.trans h)
    generalize hfirst : firstFault (armOf s.st s.edgeIn.ack) s.tick = o at hx
    cases hx with
    | goes hf => cases arm; cases ht.symm.trans (hf.trans hs)
    | stops => cases arm
    | raises hr => cases arm; cases ht; exact ⟨⟨_, rfl, hr⟩, .inl ⟨sel, rfl⟩⟩
  | false =>
    cases (step_unrecognised hrst hs ha hst).symm.trans h
    cases ht
    exact ⟨⟨s.tick, rfl, .invariant _ rfl rfl⟩, .inr rfl⟩

/-- A step that leaves a fault emits no beat. -/
theorem emitted_of_fault {s t : State} {f : BlockFault} (h : step s = .next t) (ht : t.fault = some f) :
    emitted s = none := by
  simp [emitted, h, ht]

/-- Settles O38: taking a fault writes nothing but `fault` and what the source is left with, which the cause says. -/
theorem faultEntryIsPrecise : Obligations.FaultEntryIsPrecise := by
  intro s t f hs h ht
  have silent := emitted_of_fault h ht
  obtain ⟨⟨a, rfl, cause⟩, -⟩ := step_raised hs h ht
  cases cause with
  | invariant r ha hc => exact ⟨rfl, fun _ _ => ⟨ha, hc⟩, fun hne => absurd rfl (hne r), silent⟩
  | sourceError _ ha hc => exact ⟨rfl, nofun, fun _ => ⟨ha, hc⟩, silent⟩
  | tooLong bs _ _ ha hc => exact ⟨rfl, nofun, fun _ => ⟨ha, hc⟩, silent⟩

/-! ### The faults of the source -/

theorem firstFault_drain_ne_sourceError (ack : Bool) (s : State) : firstFault (.drain ack) s ≠ some .sourceError := by
  cases hc : s.cur with
  | none => simp [firstFault, hc]
  | some f => by_cases hl : f.lastOffset ≤ s.cursor <;> simp [firstFault, hc, hl]

/-- Among the arms only those that fetch raise SourceError: REQ_HOLD makes no check, and DRAIN's are of the cursor. -/
theorem armOf_of_sourceError {st : St} {ack : Bool} {s : State} (h : firstFault (armOf st ack) s = some .sourceError) :
    armOf st ack = .init ack ∨ armOf st ack = .reqSwap ∨ armOf st ack = .stream ack := by
  cases st with
  | init => exact .inl rfl
  | requesting =>
    cases ack with
    | true => exact .inr (.inl rfl)
    | false => cases h
  | streaming => exact .inr (.inr rfl)
  | draining => exact absurd h (firstFault_drain_ne_sourceError ack s)
  | unused n => exact absurd h (firstFault_drain_ne_sourceError ack s)

/-- Settles O40: the cause of the fault is the source's answer, and of the arms only those that fetch have it among
their checks. -/
theorem sourceErrorOnlyFromFetch : Obligations.SourceErrorOnlyFromFetch := by
  refine ⟨fun s hp ha => ⟨_, congrArg (commit s) (fetchFlow_sourceError hp ha), rfl⟩, fun s t hs h ht => ?_⟩
  obtain ⟨⟨a, rfl, cause⟩, arm⟩ := step_raised hs h ht
  cases cause with
  | sourceError hans _ hcalls =>
    obtain ⟨sel, first⟩ := arm.resolve_right nofun
    exact ⟨hans, hcalls, _, sel, armOf_of_sourceError first⟩

/-- Settles O41: the cause of the fault is an answer that failed the capacity test, which only a finite NMAX can fail. -/
theorem frameTooLongOnlyAboveCapacity : Obligations.FrameTooLongOnlyAboveCapacity := by
  refine ⟨fun s t n hs h ht => ?_, fun s bs m hp ha hm hlt => ?_⟩
  · obtain ⟨⟨a, rfl, cause⟩, -⟩ := step_raised hs h ht
    cases cause with
    | tooLong bs hans hn _ _ =>
      obtain ⟨m, hm, hlt⟩ := fitsSlot_eq_false_iff.mp hn
      exact ⟨m, bs, hm, hlt, hans, rfl⟩
  · have hn : fitsSlot s.cfg bs.length = false := fitsSlot_eq_false_iff.mpr ⟨m, hm, hlt⟩
    exact ⟨_, congrArg (commit s) (fetchFlow_tooLong hp ha hn), rfl⟩

end Sys2Proof.Machine
end

section
/-!
PROOF. Codes read back (30_encoding R70, R73, R78): a control word survives its byte, and so does a class code, so each
operation decodes by the row of its port; and each field of a beat is read from where the beat word has it.
-/

namespace Sys2Proof.Machine

/-! ### A code's one byte -/

/-- The control word stands in the low six bits of its byte. -/
theorem decodeControlByte_setWidth (w : BitVec 6) (rest : List Byte) :
    decodeControlByte (w.setWidth 8 :: rest) = .ok (decodeCtl w, rest) := by
  have below := Laws.CodeShape.control_lt w
  have back : (w.setWidth 8).setWidth 6 = w := BitVec.setWidth_setWidth_of_le w (by decide)
  simp only [decodeControlByte, if_pos below, back]

theorem decodeClass_code (c : WidthClass) : decodeClass (c.code.setWidth 8) = .ok c := by cases c <;> rfl

theorem decodeCodec_code {f : WidthClass → Except DecodeError Instr} {c : WidthClass} {i : Instr} (h : f c = .ok i) :
    decodeCodec f [c.code.setWidth 8] = .ok (i, []) := by
  simp only [decodeCodec, decodeClass_code, h]

/-! ### Decoding at each port -/

theorem decode_control {i : Instr} {w : BitVec 6} (h : decodeCtl w = i) :
    decode .control [w.setWidth 8] .absent = .ok (i, []) :=
  h ▸ decodeControlByte_setWidth w []

theorem decode_encVc {c : WidthClass} {k : Nat} {i : Instr} (h : decodeEnc c k = .ok i) :
    decode .encVc [c.code.setWidth 8] (.count k) = .ok (i, []) :=
  decodeCodec_code h

/-- Where the row of a class takes every `n`-bit value, it takes that of an `n`-bit field. -/
theorem decode_decVc {c : WidthClass} {n : Nat} {op : BitVec n → Instr} (m : BitVec n)
    (row : ∀ k, decodeDec c k = if k < 2 ^ n then .ok (op (BitVec.ofNat n k)) else .error .fieldOutOfDomain) :
    decode .decVc [c.code.setWidth 8] (.modField m.toNat) = .ok (op m, []) := by
  refine decodeCodec_code ?_
  rw [row, if_pos m.isLt, BitVec.ofNat_toNat, BitVec.setWidth_eq]

/-- Settles O1: a control word decodes by the table of the selector, a codec code by its class and its operand's domain,
and a micro-operation by its port. -/
theorem decodeEncodeAgree : Obligations.DecodeEncodeAgree := by
  intro i
  cases i
  case idle ack st => exact decode_control (decodeCtl_idle ack st)
  case init ack => exact decode_control (decodeCtl_active ack 0b00#2)
  case reqHold => exact decode_control (decodeCtl_active false 0b01#2)
  case reqSwap => exact decode_control (decodeCtl_active true 0b01#2)
  case stream ack => exact decode_control (decodeCtl_active ack 0b10#2)
  case drain ack => exact decode_control (decodeCtl_active ack 0b11#2)
  case reset flt sel => exact decode_control (decodeCtl_reset flt sel)
  case faulted sel => exact decode_control (decodeCtl_faulted sel)
  case pack c bytes off => exact decodeCodec_code (f := fun c => .ok (.pack c bytes off)) rfl
  case encVcW1 k => exact decode_encVc (c := .w1) (dif_pos k.isLt)
  case encVcW2 k => exact decode_encVc (c := .w2) (dif_pos k.isLt)
  case encVcW4 k => exact decode_encVc (c := .w4) (dif_pos k.isLt)
  case encVcW8 k => exact decode_encVc (c := .w8) (dif_pos k.isLt)
  case encVcW16 k => exact decode_encVc (c := .w16) (dif_pos k.isLt)
  case encVcW32 k => exact decode_encVc (c := .w32) (dif_pos k.isLt)
  case encVcW64 k => exact decode_encVc (c := .w64) (dif_pos k.isLt)
  case decVcW1 => rfl
  case decVcW2 m => exact decode_decVc (c := .w2) m fun _ => rfl
  case decVcW4 m => exact decode_decVc (c := .w4) m fun _ => rfl
  case decVcW8 m => exact decode_decVc (c := .w8) m fun _ => rfl
  case decVcW16 m => exact decode_decVc (c := .w16) m fun _ => rfl
  case decVcW32 m => exact decode_decVc (c := .w32) m fun _ => rfl
  case decVcW64 m => exact decode_decVc (c := .w64) m fun _ => rfl
  case thresh | fetch | swap | beat | idleBeat | reqDecide | nextState => rfl

/-- Settles O2: the words are 64, each checked. -/
theorem encodeDecodeControlAgree : Obligations.EncodeDecodeControlAgree := by
  unfold Obligations.EncodeDecodeControlAgree
  decide

/-- Settles O3: each code is decoded by the table. -/
theorem specWordsDecode : Obligations.SpecWordsDecode := by
  unfold Obligations.SpecWordsDecode
  decide

/-! ### The step -/

theorem selected_of_recognised {s : State} (h : s.active = true → s.st.recognised = true) :
    s.selected = .op (decodeCtl (s.ctlWordAt s.edgeIn)) := by
  have known : (s.activeAt s.edgeIn && !s.st.recognised) = false := by
    cases ha : s.activeAt s.edgeIn with
    | true => simp [h ha]
    | false => rfl
  rw [State.selected, State.selectAt, known]
  rfl

/-- Settles O9: the control byte decodes to what its word selects. -/
theorem stepRunsDecodedOperation : Obligations.StepRunsDecodedOperation := by
  intro s i hst hdec
  cases (decode_control rfl).symm.trans hdec
  exact step_of_selected (selected_of_recognised hst)

/-! ### The beat word read back -/

section
variable {c : WidthClass} {b : Beat} (h : beatFits c b = true)
include h

theorem beatOfWire_usr : (beatOfWire c (wireWord c b)).usr = b.usr := by
  apply BitVec.eq_of_toNat_eq
  simp only [beatOfWire, BitVec.toNat_setWidth, BitVec.toNat_ushiftRight, Nat.shiftRight_eq_div_pow, wireWord_div_usr h]
  exact Nat.mod_eq_of_lt b.usr.isLt

theorem beatOfWire_mod : (beatOfWire c (wireWord c b)).mod = b.mod := by
  have narrow : c.modW ≤ 6 := index_le_6 c
  apply BitVec.eq_of_toNat_eq
  simp only [beatOfWire, lowBits, BitVec.toNat_ofNat, BitVec.toNat_setWidth, BitVec.toNat_ushiftRight,
    Nat.shiftRight_eq_div_pow, Nat.mod_mod_of_dvd _ (Nat.pow_dvd_pow 2 narrow), wireWord_div_datW_mod_modW h]
  exact Nat.mod_eq_of_lt b.mod.isLt

theorem beatOfWire_dat : (beatOfWire c (wireWord c b)).dat = b.dat := by
  have narrow : c.datW ≤ 512 := Nat.mul_le_mul_left 8 (bytes_le_64 c)
  apply BitVec.eq_of_toNat_eq
  simp only [beatOfWire, lowBits, BitVec.toNat_ofNat, BitVec.toNat_setWidth,
    Nat.mod_mod_of_dvd _ (Nat.pow_dvd_pow 2 narrow), wireWord_mod_datW h]
  exact Nat.mod_eq_of_lt b.dat.isLt

end

theorem beat_ext {a b : Beat} (usr : a.usr = b.usr) (err : a.err = b.err) (val : a.val = b.val) (sof : a.sof = b.sof)
    (eof : a.eof = b.eof) (mod : a.mod = b.mod) (dat : a.dat = b.dat) : a = b := by
  cases a
  cases b
  simp_all only

/-- Settles O7: `usr`, `mod` and `dat` are digits of the word as a number, and the flags are bits of it. -/
theorem beatWordRoundTrip : Obligations.BeatWordRoundTrip := by
  intro c b h
  obtain ⟨-, -, -, eof, sof, val, err, -⟩ := beatWordPositions c b h
  exact beat_ext (beatOfWire_usr h) err val sof eof (beatOfWire_mod h) (beatOfWire_dat h)

end Sys2Proof.Machine
end

section
/-!
PROOF. BeatCodec and THRESH by themselves (40_beatcodec, 41_framebuffer R130): the lanes of a packed word, the
valid-count code and its inverse, the reassembly of a frame from its beats, and the two thresholds.
-/

namespace Sys2Proof.Machine

/-! ### PACK -/

theorem byteAt_eq_dite (bs : List Byte) (i : Nat) : byteAt bs i = if h : i < bs.length then bs[i] else 0x00#8 := by
  by_cases h : i < bs.length
  · rw [dif_pos h, byteAt_lt h]
  · rw [dif_neg h, byteAt_past (Nat.not_lt.mp h)]
    rfl

theorem memRead_past {bs : List Byte} {off : Nat} (n : Nat) (h : bs.length ≤ off) :
    memRead bs off n = List.replicate n 0 :=
  List.eq_replicate_iff.mpr ⟨memRead_length bs off n, fun b hb => by
    obtain ⟨j, -, rfl⟩ := List.mem_map.mp hb
    exact byteAt_past (h.trans (Nat.le_add_right off j))⟩

theorem wordOfLanes_replicate_zero (n : Nat) : wordOfLanes (List.replicate n 0) = 0 := by
  induction n with
  | zero => rfl
  | succ n ih =>
    rw [List.replicate_succ', wordOfLanes_append, ih]
    simp

/-- At or past the end PACK gives zero lanes only. -/
theorem packWord_past (c : WidthClass) {bs : List Byte} {off : Nat} (h : bs.length ≤ off) : packWord c bs off = 0 := by
  rw [packWord, memRead_past c.bytes h, wordOfLanes_replicate_zero]

/-- Settles O18: the word is the lanes of the bytes read, and a read past the end is 0. -/
theorem packCopiesBigEndianLanes : Obligations.PackCopiesBigEndianLanes :=
  fun _ c bytes off => ⟨packWord c bytes off, rfl, packWord_lt c bytes off,
    fun j hj => (lane_packWord c bytes off j hj).trans (byteAt_eq_dite bytes (off + j)), packWord_past c⟩

/-! ### The valid-count code -/

/-- Settles O19: each row puts its class's formula on the tap. -/
theorem encodeValidCountByClass : Obligations.EncodeValidCountByClass :=
  fun _ => ⟨fun _ => rfl, fun _ => rfl, fun _ => rfl, fun _ => rfl, fun _ => rfl, fun _ => rfl, fun _ => rfl⟩

/-- A field of `c` bits, held in the widest class's word, decodes as its value, and as `W` at 0. -/
theorem decVc_setWidth (c : WidthClass) (m : BitVec c.modW) :
    decVc c (m.setWidth 6) = if m = 0#c.modW then c.bytes else m.toNat := by
  have value : (m.setWidth 6).toNat = m.toNat := BitVec.toNat_setWidth_of_le (index_le_6 c)
  have zero : m.setWidth 6 = 0 ↔ m = 0#c.modW := by
    simp only [← BitVec.toNat_inj, value, BitVec.toNat_ofNat, BitVec.ofNat_eq_ofNat, Nat.zero_mod]
  rw [decVc_eq c (value ▸ m.isLt), value]
  exact if_congr zero rfl rfl

theorem decVc_w2_setWidth (m : BitVec 1) : decVc .w2 (m.setWidth 6) = if m = 1#1 then 1 else 2 := by
  revert m; decide

/-- A DEC_VC row puts the count it decodes on the tap. -/
theorem next_setTap_count (s : State) {k n : Nat} (h : k = n) :
    (Host.Outcome.next (s.setTap (.count k)) : Host.Outcome State Fault Refusal) = .next { s with tap := .count n } :=
  h ▸ rfl

/-- Settles O20: each row puts its class's formula on the tap. -/
theorem decodeValidCountByClass : Obligations.DecodeValidCountByClass :=
  fun s => ⟨rfl, fun m => next_setTap_count s (decVc_w2_setWidth m),
    fun m => next_setTap_count s (decVc_setWidth .w4 m), fun m => next_setTap_count s (decVc_setWidth .w8 m),
    fun m => next_setTap_count s (decVc_setWidth .w16 m), fun m => next_setTap_count s (decVc_setWidth .w32 m),
    fun m => next_setTap_count s ((congrArg (decVc .w64) (BitVec.setWidth_eq m).symm).trans (decVc_setWidth .w64 m))⟩

theorem encVc_bytes (c : WidthClass) : encVc c c.bytes = 0 :=
  BitVec.eq_of_toNat_eq ((encVc_toNat c le_rfl).trans (Nat.mod_self _))

theorem encVc_zero (c : WidthClass) : encVc c 0 = 0 :=
  BitVec.eq_of_toNat_eq ((encVc_toNat c (Nat.zero_le _)).trans (Nat.zero_mod _))

theorem decVc_zero (c : WidthClass) : decVc c 0 = c.bytes :=
  (decVc_eq c (Nat.two_pow_pos _)).trans (if_pos rfl)

/-- Decoding undoes encoding on `1..W`: below `W` the code is the count itself. -/
theorem decVc_encVc (c : WidthClass) {k : Nat} (h1 : 1 ≤ k) (hk : k ≤ c.bytes) : decVc c (encVc c k) = k := by
  rcases hk.eq_or_lt with rfl | hlt
  · rw [encVc_bytes, decVc_zero]
  · have value : (encVc c k).toNat = k := (encVc_toNat c hk).trans (Nat.mod_eq_of_lt hlt)
    have nonzero : encVc c k ≠ 0 := fun h0 => by
      rw [h0] at value
      exact absurd value (Nat.ne_of_lt h1)
    rw [decVc_eq c (encVc_lt c hk), if_neg nonzero, value]

/-- Settles O21: the code is `k mod W`, decoding undoes it on `1..W`, and 0 has the code of `W`. -/
theorem validCountRoundTrip : Obligations.ValidCountRoundTrip :=
  fun c _ hk => ⟨encVc_toNat c hk, fun h1 => decVc_encVc c h1 hk, fun h0 => by rw [h0, encVc_zero, decVc_zero]⟩

/-- A `c`-bit value decodes into `1..W` and is the code of what it decodes to. -/
theorem encVc_decVc (c : WidthClass) {m : ModField} (h : m.toNat < 2 ^ c.modW) :
    1 ≤ decVc c m ∧ decVc c m ≤ c.bytes ∧ encVc c (decVc c m) = m := by
  by_cases h0 : m = 0
  · subst h0
    rw [decVc_zero]
    exact ⟨bytes_pos c, le_rfl, encVc_bytes c⟩
  · have pos : m.toNat ≠ 0 := fun hz => h0 (BitVec.eq_of_toNat_eq hz)
    rw [two_pow_modW] at h
    rw [decVc_eq c h, if_neg h0]
    exact ⟨Nat.pos_of_ne_zero pos, h.le, BitVec.eq_of_toNat_eq ((encVc_toNat c h.le).trans (Nat.mod_eq_of_lt h))⟩

/-- Settles O22: decoding is a right inverse of encoding on the `c`-bit values, and a left inverse on `1..W`. -/
theorem validCountCodeIsBijection : Obligations.ValidCountCodeIsBijection := by
  intro c m h
  obtain ⟨low, high, back⟩ := encVc_decVc c h
  exact ⟨low, high, back, fun k h1 hk hm => hm ▸ (decVc_encVc c h1 hk).symm⟩

/-! ### The beats of a frame -/

/-- `B(N)` is the least positive number of beats with room for `N` bytes. -/
theorem beatCount_le_succ_iff (c : WidthClass) (n j : Nat) : beatCount c n ≤ j + 1 ↔ n ≤ j * c.bytes + c.bytes := by
  have hp := bytes_pos c
  have room : (n + c.bytes - 1) / c.bytes < j + 2 ↔ n + c.bytes - 1 < j * c.bytes + 2 * c.bytes := by
    rw [Nat.div_lt_iff_lt_mul hp, Nat.add_mul]
  unfold beatCount
  omega

theorem beatCount_pos (c : WidthClass) (n : Nat) : 0 < beatCount c n := Nat.le_max_left 1 _

/-- A beat of a frame after the first starts inside the frame. -/
theorem offset_lt_of_lt_beatCount {c : WidthClass} {n j : Nat} (h : j + 1 < beatCount c n) :
    j * c.bytes + c.bytes < n :=
  Nat.lt_of_not_le fun hle => absurd ((beatCount_le_succ_iff c n j).mpr hle) (Nat.not_le.mpr h)

/-- The last offset of the beats of a frame is the last beat's. -/
theorem offset_le_of_lt_beatCount {c : WidthClass} {n j : Nat} (h : j < beatCount c n) : j * c.bytes ≤ n := by
  cases j with
  | zero => simp
  | succ j => exact Nat.succ_mul j _ ▸ (offset_lt_of_lt_beatCount h).le

/-- The `mod` of a frame's beat is the code of the bytes it holds: 0 on the full beats, `N mod W` on the last. -/
theorem frameBeat_mod (cfg : Config) (bytes : List Byte) {j : Nat} (hj : j < beatCount cfg.c bytes.length) :
    (frameBeat cfg bytes j).1.mod = encVc cfg.c (validCount cfg.c bytes.length (j * cfg.c.bytes)) := by
  have inside := offset_le_of_lt_beatCount hj
  by_cases hl : j + 1 < beatCount cfg.c bytes.length
  · have full : validCount cfg.c bytes.length (j * cfg.c.bytes) = cfg.c.bytes := by
      have := offset_lt_of_lt_beatCount hl
      unfold validCount
      omega
    have interior : j ≠ beatCount cfg.c bytes.length - 1 := by omega
    rw [full, encVc_bytes]
    exact if_neg interior
  · have last : j = beatCount cfg.c bytes.length - 1 := by omega
    have rest := (beatCount_le_succ_iff cfg.c bytes.length j).mp (Nat.not_lt.mp hl)
    have count : validCount cfg.c bytes.length (j * cfg.c.bytes) = bytes.length - j * cfg.c.bytes := by
      unfold validCount
      omega
    have residue : (bytes.length - j * cfg.c.bytes) % cfg.c.bytes = bytes.length % cfg.c.bytes :=
      Nat.mul_comm j _ ▸ Nat.sub_mul_mod (Nat.mul_comm j _ ▸ inside)
    refine (if_pos last).trans (BitVec.eq_of_toNat_eq ?_)
    rw [count, encVc_toNat cfg.c (by omega), residue, BitVec.toNat_ofNat]
    exact Nat.mod_eq_of_lt ((Nat.mod_lt _ (bytes_pos cfg.c)).trans_le (bytes_le_64 cfg.c))

/-- The valid lanes of a packed beat are the bytes it was packed from. -/
theorem validLanes_packed {c : WidthClass} {b : Beat} {bytes : List Byte} {off : Nat}
    (hdat : b.dat = packWord c bytes off) (hmod : decVc c b.mod = min c.bytes (bytes.length - off)) :
    validLanes c b = (bytes.drop off).take c.bytes := by
  refine List.ext_getElem (by simp [validLanes, hmod]) fun j hj _ => ?_
  obtain ⟨hW, hN⟩ : j < c.bytes ∧ j < bytes.length - off := by simpa [validLanes, hmod] using hj
  have inside : off + j < bytes.length := by omega
  simp [validLanes, hdat, lane_packWord c bytes off j hW, byteAt_lt inside]

theorem validLanes_frameBeat (cfg : Config) {bytes : List Byte} {j : Nat} (hne : bytes ≠ [])
    (hj : j < beatCount cfg.c bytes.length) :
    validLanes cfg.c (frameBeat cfg bytes j).1 = (bytes.drop (j * cfg.c.bytes)).take cfg.c.bytes := by
  have hpos := List.length_pos_of_ne_nil hne
  have hW := bytes_pos cfg.c
  have some_bytes : 1 ≤ validCount cfg.c bytes.length (j * cfg.c.bytes) := by
    unfold validCount
    cases j with
    | zero => omega
    | succ j =>
      have := offset_lt_of_lt_beatCount hj
      rw [Nat.succ_mul]
      omega
  refine validLanes_packed rfl ?_
  rw [frameBeat_mod cfg bytes hj, decVc_encVc cfg.c some_bytes (Nat.min_le_left _ _), validCount]

/-- The pieces of `w` from the start of a list are its start. -/
theorem flatMap_range_take_drop {α : Type} (l : List α) (w n : Nat) :
    (List.range n).flatMap (fun j => (l.drop (j * w)).take w) = l.take (n * w) := by
  induction n with
  | zero => simp
  | succ n ih => rw [List.range_succ, List.flatMap_append, ih, List.flatMap_singleton, Nat.succ_mul, List.take_add]

/-- Settles O23: the valid lanes of beat `j` are the bytes of the frame at `j W`, and `B(N)` such pieces make up the
frame. -/
theorem reassemblyGivesFrameBack : Obligations.ReassemblyGivesFrameBack := by
  intro cfg bytes hne
  have room : bytes.length ≤ beatCount cfg.c bytes.length * cfg.c.bytes := by
    have count : beatCount cfg.c bytes.length = beatCount cfg.c bytes.length - 1 + 1 :=
      (Nat.sub_add_cancel (beatCount_pos _ _)).symm
    rw [count, Nat.succ_mul]
    exact (beatCount_le_succ_iff cfg.c bytes.length _).mp count.le
  calc (frameBeats cfg bytes).flatMap (fun p => validLanes cfg.c p.1)
      = (List.range (beatCount cfg.c bytes.length)).flatMap
          (fun j => validLanes cfg.c (frameBeat cfg bytes j).1) := List.flatMap_map ..
    _ = (List.range (beatCount cfg.c bytes.length)).flatMap
          (fun j => (bytes.drop (j * cfg.c.bytes)).take cfg.c.bytes) :=
        List.flatMap_congr fun j hj => validLanes_frameBeat cfg hne (List.mem_range.mp hj)
    _ = bytes := by rw [flatMap_range_take_drop, List.take_of_length_le room]

/-! ### THRESH -/

theorem exec_thresh (s : State) (bytes : List Byte) :
    exec (.thresh bytes) s = .next { s with tap := .frame (threshFrame s.cfg.c bytes) } := rfl

/-- Settles O24: the subtractions of natural numbers are the clamps. -/
theorem threshBuildsFrame : Obligations.ThreshBuildsFrame := by
  refine fun s bytes => ⟨_, exec_thresh s bytes, rfl, rfl, ?_⟩
  simp only [threshFrame_lastOffset, threshFrame_prefetchOffset]
  omega

/-- Settles O25: `N - 2W` and `N - W`, with both subtractions stopping at 0. -/
theorem thresholdsOrdered : Obligations.ThresholdsOrdered := by
  refine fun s bytes => ⟨_, exec_thresh s bytes, ?_⟩
  simp only [threshFrame_lastOffset, threshFrame_prefetchOffset]
  omega

end Sys2Proof.Machine
end

section
/-!
PROOF. All a step can do. How a completed arm leaves the block is said once (`Completes`), and so is what a step can
answer (`exists_step_result`, `step_result`): the sections below follow by its cases. Here, that every edge has a next
state, and what RESET and the model's own stop do.
-/

namespace Sys2Proof.Machine

/-! ### What a completed arm leaves -/

/-- Arm `i` from `s` has come to `u`, and emits the beat of frame `f` at the cursor there, the first one if `b`
(42_framestreamer R158, R159). -/
inductive BeginsBeat : Instr → State → State → Frame → Bool → Prop
  | swap {s : State} {f : Frame} : s.pend = some f → BeginsBeat .reqSwap s (swapState s f) f true
  | advance (ack : Bool) {s : State} {f : Frame} : s.cur = some f → s.cursor < f.lastOffset →
      BeginsBeat (.stream ack) s (s.setCursor (advanceCursor s.cfg.c f.len s.cursor)) f false

/-- All an arm that completes can leave. -/
inductive Completes : Instr → State → State → Prop
  | firstFetch (ack : Bool) {s : State} {bs : List Byte} : s.pend = none → s.nextAnswer = .frame bs →
      fitsSlot s.cfg bs.length = true →
      Completes (.init ack) s { s.consumeAnswer with
        pend := some (threshFrame s.cfg.c bs), req := true, out := idleBeatOf s.cfg, st := .requesting }
  | hold (s : State) : Completes .reqHold s (s.setOut (idleBeatOf s.cfg))
  | early {i : Instr} {s u : State} {f : Frame} {b : Bool} : BeginsBeat i s u f b → u.cursor < f.prefetchOffset →
      Completes i s { beatState u f u.cursor b with req := false }
  | fetch {i : Instr} {s u : State} {f : Frame} {b : Bool} {bs : List Byte} : BeginsBeat i s u f b →
      f.prefetchOffset ≤ u.cursor → u.pend = none → s.nextAnswer = .frame bs → fitsSlot s.cfg bs.length = true →
      Completes i s { beatState u.consumeAnswer f u.cursor b with
        req := true, pend := some (threshFrame s.cfg.c bs) }
  | drain (ack : Bool) {s : State} {f : Frame} : s.cur = some f → s.cursor < f.lastOffset →
      Completes (.drain ack) s (beatState s f (advanceCursor s.cfg.c f.len s.cursor) false)

/-- The flow of an arm from `s` completes or raises. -/
inductive ArmOutcome (i : Instr) (s : State) : Flow → Prop
  | completes {t : State} : Completes i s t → ArmOutcome i s (.go t)
  | raises {f : BlockFault} {a : State} : RaisedFrom s f a → ArmOutcome i s (.raised f a)

theorem BeginsBeat.beforeFetch {i : Instr} {s u : State} {f : Frame} {b : Bool} (h : BeginsBeat i s u f b) :
    BeforeFetch s u := by
  cases h <;> exact ⟨rfl, rfl, rfl, rfl⟩

theorem BeginsBeat.cur {i : Instr} {s u : State} {f : Frame} {b : Bool} (h : BeginsBeat i s u f b) :
    u.cur = some f := by
  cases h with
  | swap => rfl
  | advance _ hc => exact hc

theorem armOutcome_init (ack : Bool) (s : State) : ArmOutcome (.init ack) s (initFlow s) := by
  rcases initFlow_cases s with ⟨-, e⟩ | ⟨-, ha, e⟩ | ⟨bs, hp, ha, hn, e⟩ | ⟨bs, -, ha, hn, e⟩ <;> rw [e]
  · exact .raises (.invariant _ rfl rfl)
  · exact .raises (.sourceError ha rfl rfl)
  · exact .completes (.firstFetch ack hp ha hn)
  · exact .raises (.tooLong bs ha hn rfl rfl)

theorem armOutcome_beatDecideNext {i : Instr} {s u : State} {f : Frame} {b : Bool} (h : BeginsBeat i s u f b) :
    ArmOutcome i s (beatDecideNext b u) := by
  have same := h.beforeFetch
  have answer : u.nextAnswer = s.nextAnswer := nextAnswer_congr same.answers same.calls
  rcases beatDecideNext_cases b h.cur with ⟨hp, e⟩ | ⟨hp, ⟨bs, he, ha, hn, e⟩ | ⟨-, a, e, hans, hcalls⟩ |
    ⟨-, ha, a, e, hans, hcalls⟩ | ⟨bs, -, ha, hn, a, e, hans, hcalls⟩⟩ <;> rw [e]
  · exact .completes (.early h hp)
  · rw [same.cfg] at hn ⊢
    exact .completes (.fetch h hp he (answer ▸ ha) hn)
  · exact .raises ((RaisedFrom.invariant _ hans hcalls).of_beforeFetch same)
  · exact .raises ((RaisedFrom.sourceError ha hans hcalls).of_beforeFetch same)
  · exact .raises ((RaisedFrom.tooLong bs ha hn hans hcalls).of_beforeFetch same)

theorem armOutcome_reqSwap (s : State) : ArmOutcome .reqSwap s (reqSwapFlow s) := by
  cases hp : s.pend with
  | none => exact reqSwapFlow_none hp ▸ .raises (.invariant _ rfl rfl)
  | some f => exact reqSwapFlow_some hp ▸ armOutcome_beatDecideNext (.swap hp)

theorem armOutcome_stream (ack : Bool) (s : State) : ArmOutcome (.stream ack) s (streamFlow s) := by
  cases hc : s.cur with
  | none => exact streamFlow_none hc ▸ .raises (.invariant _ rfl rfl)
  | some f =>
    by_cases hl : f.lastOffset ≤ s.cursor
    · exact streamFlow_past hc hl ▸ .raises (.invariant _ rfl rfl)
    · have hl := Nat.not_le.mp hl
      exact streamFlow_some hc hl ▸ armOutcome_beatDecideNext (.advance ack hc hl)

theorem armOutcome_drain (ack : Bool) (s : State) : ArmOutcome (.drain ack) s (drainFlow s) := by
  cases hc : s.cur with
  | none => exact drainFlow_none hc ▸ .raises (.invariant _ rfl rfl)
  | some f =>
    by_cases hl : f.lastOffset ≤ s.cursor
    · exact drainFlow_past hc hl ▸ .raises (.invariant _ rfl rfl)
    · have hl := Nat.not_le.mp hl
      exact drainFlow_some hc hl ▸ .completes (.drain ack hc hl)

/-- Every arm answers a next state: it completes, or takes a fault with a cause. -/
theorem exec_armOf (st : St) (ack : Bool) (s : State) :
    ∃ x, exec (armOf st ack) s = commit s x ∧ ArmOutcome (armOf st ack) s x := by
  cases st with
  | init => exact ⟨_, rfl, armOutcome_init ack s⟩
  | requesting =>
    cases ack with
    | true => exact ⟨_, rfl, armOutcome_reqSwap s⟩
    | false => exact ⟨_, rfl, .completes (.hold s)⟩
  | streaming => exact ⟨_, rfl, armOutcome_stream ack s⟩
  | draining => exact ⟨_, rfl, armOutcome_drain ack s⟩
  | unused n => exact ⟨_, rfl, armOutcome_drain ack s⟩

/-! ### All a step can do -/

/-- All a step from `s` can leave (42_framestreamer R150). -/
inductive StepResult (s : State) : State → Prop
  | reset : s.edgeIn.rst = true → StepResult s (resetState s.tick)
  | inactive : s.edgeIn.rst = false → s.active = false → StepResult s s.tick
  | raised {f : BlockFault} {a : State} : s.active = true → RaisedFrom s.tick f a →
      StepResult s (takeFault s.tick f a)
  | completed {t : State} : s.active = true → s.st.recognised = true →
      Completes (armOf s.st s.edgeIn.ack) s.tick t → StepResult s t

theorem active_iff {s : State} :
    s.active = true ↔ s.edgeIn.rst = false ∧ s.fault = none ∧ s.edgeIn.avail = true := by
  simp [State.active, State.activeAt, and_assoc]

/-- A step without reset that is not active changes nothing. -/
theorem step_inactive {s : State} (hrst : s.edgeIn.rst = false) (h : s.active = false) : step s = .next s.tick := by
  by_cases hf : s.fault = none
  · have ha : s.edgeIn.avail = false := by simpa [State.active, State.activeAt, hrst, hf] using h
    exact step_idle hrst hf ha
  · exact step_faulted hrst hf

theorem exists_step_result (s : State) : ∃ t, step s = .next t ∧ StepResult s t := by
  cases hact : s.active with
  | false =>
    cases hrst : s.edgeIn.rst with
    | true => exact ⟨_, step_reset hrst false 0, .reset hrst⟩
    | false => exact ⟨_, step_inactive hrst hact, .inactive hrst hact⟩
  | true =>
    obtain ⟨hrst, hf, ha⟩ := active_iff.mp hact
    cases hst : s.st.recognised with
    | false => exact ⟨_, step_unrecognised hrst hf ha hst, .raised hact (.invariant .unrecognisedState rfl rfl)⟩
    | true =>
      obtain ⟨x, e, outcome⟩ := exec_armOf s.st s.edgeIn.ack s.tick
      rw [step_active hrst hf ha hst, e]
      cases outcome with
      | completes done => exact ⟨_, rfl, .completed hact hst done⟩
      | raises cause => exact ⟨_, rfl, .raised hact cause⟩

theorem step_result {s t : State} (h : step s = .next t) : StepResult s t := by
  obtain ⟨u, hu, result⟩ := exists_step_result s
  cases hu.symm.trans h
  exact result

theorem observation_steps_length (k : Nat) : ∀ s, (observation k s).steps.length = k := by
  induction k with
  | zero => exact fun _ => rfl
  | succ k ih =>
    intro s
    obtain ⟨t, ht, -⟩ := exists_step_result s
    rw [observation_succ k ht, List.length_cons, ih]

/-- Settles O11: no arm reads the empty slot, so every edge adds a step to what is seen. -/
theorem stepAlwaysAnswersNext : Obligations.StepAlwaysAnswersNext := by
  refine ⟨fun s => ?_, fun k s => ⟨observation_steps_length k s, ?_⟩⟩
  · obtain ⟨t, ht, -⟩ := exists_step_result s
    exact ⟨t, ht⟩
  · rw [Observation.reqs, List.length_map, observation_steps_length]

/-- A recorded fault stays until a reset. -/
theorem rst_of_fault_cleared {s t : State} (hs : s.fault ≠ none) (h : step s = .next t) (ht : t.fault = none) :
    s.edgeIn.rst = true := by
  cases hrst : s.edgeIn.rst with
  | true => rfl
  | false =>
    cases (step_faulted hrst hs).symm.trans h
    exact absurd ht hs

/-- Settles O15: RESET is one write of every element, and a faulted block without reset is held. -/
theorem resetSetsEveryElement : Obligations.ResetSetsEveryElement :=
  ⟨fun _ _ _ => rfl, fun _ => step_reset, fun _ _ => rst_of_fault_cleared⟩

/-- Settles O32: each of the three reads `cur` first. -/
theorem emptySlotReadStops : Obligations.EmptySlotReadStops :=
  fun s hc => ⟨fun _ => congrArg (commit s) (beatFlow_none hc), congrArg (commit s) (reqDecideFlow_none hc),
    congrArg (commit s) (nextStateFlow_none hc)⟩

end Sys2Proof.Machine
end

section
/-!
PROOF. What every step keeps (10_state R34, 41_framebuffer R130): the forms of the memory, of the output register and of
`bits`, and the table of reachable states. Which beat of which frame comes next is said by `Due`; the state after a
beat is said once (`AfterBeat`), and the table follows from it.
-/

namespace Sys2Proof.Machine

/-! ### The memory form -/

theorem BeginsBeat.memory_wf {i : Instr} {s u : State} {f : Frame} {b : Bool} (h : BeginsBeat i s u f b)
    (wf : Memory.wf s = true) : Memory.wf u = true := by
  cases h with
  | swap hp => exact Memory.wf_moveToCur wf hp
  | advance => exact wf

theorem Completes.memory_wf {i : Instr} {s t : State} (h : Completes i s t) (wf : Memory.wf s = true) :
    Memory.wf t = true := by
  cases h with
  | firstFetch ack _ _ hn => exact Memory.wf_setPend (s := s.consumeAnswer) wf hn
  | hold => exact wf
  | early start _ => exact start.memory_wf wf
  | fetch start _ _ _ hn =>
    have hn := start.beforeFetch.cfg ▸ hn
    exact start.beforeFetch.cfg ▸ Memory.wf_setPend (start.memory_wf wf) hn
  | drain => exact wf

/-- Settles O57: a fetched frame has the form, a move keeps it, and no other write of a step is to a slot. -/
theorem memoryFormKept : Obligations.MemoryFormKept := by
  intro s t wf h
  cases step_result h with
  | reset => exact Memory.wf_resetState s.tick
  | inactive => exact wf
  | raised => exact wf
  | completed _ _ done => exact done.memory_wf wf

/-! ### The output form -/

theorem BeginsBeat.emits {i : Instr} {s u : State} {f : Frame} {b : Bool} (h : BeginsBeat i s u f b) :
    Machine.emits i = true := by
  cases h <;> rfl

theorem BeginsBeat.first_eq {i : Instr} {s u : State} {f : Frame} {b : Bool} (h : BeginsBeat i s u f b) :
    b = decide (i = .reqSwap) := by
  cases h <;> rfl

/-- A completed arm that emits a beat leaves the beat of the current frame at the cursor; one that emits none, the idle
beat. -/
theorem Completes.out {i : Instr} {s t : State} (h : Completes i s t) :
    (emits i = false ∧ t.out = idleBeatOf t.cfg) ∨
    (emits i = true ∧ ∃ f, t.cur = some f ∧ t.out = emittedBeat t.cfg f t.cursor (decide (i = .reqSwap))) := by
  cases h with
  | firstFetch => exact .inl ⟨rfl, rfl⟩
  | hold => exact .inl ⟨rfl, rfl⟩
  | early start _ => exact .inr ⟨start.emits, _, start.cur, start.first_eq ▸ rfl⟩
  | fetch start => exact .inr ⟨start.emits, _, start.cur, start.first_eq ▸ rfl⟩
  | drain _ hc _ => exact .inr ⟨rfl, _, hc, rfl⟩

/-- The zero fields are those of no bytes: they fit. -/
theorem beatFits_idleBeatOf (cfg : Config) : beatFits cfg.c (idleBeatOf cfg) = true := by
  have mod := encVc_lt cfg.c (Nat.zero_le cfg.c.bytes)
  have dat := packWord_lt cfg.c [] 0
  rw [encVc_zero] at mod
  rw [packWord_past cfg.c (Nat.zero_le 0)] at dat
  exact beatFits_iff.mpr ⟨mod, dat⟩

theorem outInv_of_idleBeat {s : State} (h : s.out = idleBeatOf s.cfg) : OutInv s :=
  ⟨congrArg Beat.err h, congrArg Beat.usr h, h ▸ beatFits_idleBeatOf s.cfg⟩

theorem outInv_of_emittedBeat {s : State} {f : Frame} {n : Nat} {b : Bool} (h : s.out = emittedBeat s.cfg f n b) :
    OutInv s := by
  have fits : beatFits s.cfg.c (emittedBeat s.cfg f n b) = true :=
    beatFits_iff.mpr ⟨encVc_lt s.cfg.c (Nat.min_le_left _ _), packWord_lt s.cfg.c f.bytes n⟩
  exact ⟨congrArg Beat.err h, congrArg Beat.usr h, h ▸ fits⟩

/-- Settles O58: what a step writes to the register is the idle beat or a frame's beat, and both have the form. -/
theorem outputFormKept : Obligations.OutputFormKept := by
  intro s t inv h
  cases step_result h with
  | reset => exact outInv_of_idleBeat rfl
  | inactive => exact inv
  | raised => exact inv
  | completed _ _ done =>
    rcases done.out with ⟨-, hout⟩ | ⟨-, f, -, hout⟩
    · exact outInv_of_idleBeat hout
    · exact outInv_of_emittedBeat hout

/-! ### The bit count -/

theorem bitsInv_some {s : State} {f : Frame} (h : s.cur = some f) : BitsInv s ↔ s.bits = 8 * f.len := by
  simp [BitsInv, h]

theorem BeginsBeat.bitsInv {i : Instr} {s u : State} {f : Frame} {b : Bool} (h : BeginsBeat i s u f b)
    (inv : BitsInv s) : BitsInv u := by
  cases h with
  | swap => exact (bitsInv_some rfl).mpr rfl
  | advance => exact inv

theorem Completes.bitsInv {i : Instr} {s t : State} (h : Completes i s t) (inv : BitsInv s) : BitsInv t := by
  cases h with
  | firstFetch => exact inv
  | hold => exact inv
  | early start _ => exact start.bitsInv inv
  | fetch start => exact start.bitsInv inv
  | drain => exact inv

/-- Settles O59: the arm that makes a frame current writes `bits` for it, and a reset clears both. -/
theorem bitsHintKept : Obligations.BitsHintKept := by
  intro s t inv h
  cases step_result h with
  | reset => exact rfl
  | inactive => exact inv
  | raised => exact inv
  | completed _ _ done => exact done.bitsInv inv

/-! ### The beat to come -/

/-- The state an arm is the arm of. -/
def stOfArm : Instr → St
  | .init _ => .init
  | .reqHold | .reqSwap => .requesting
  | .stream _ => .streaming
  | _ => .draining

theorem st_of_armOf {st : St} {ack : Bool} {i : Instr} (hst : st.recognised = true) (h : armOf st ack = i) :
    st = stOfArm i := by
  subst h
  cases st with
  | init | streaming | draining => rfl
  | requesting => cases ack <;> rfl
  | unused n => cases hst

theorem stInv_draining {s : State} (hst : s.st = .draining) :
    StInv s ↔ s.pend ≠ none ∧ s.req = true ∧
      ∃ f, s.cur = some f ∧ f.prefetchOffset ≤ s.cursor ∧ s.cursor < f.lastOffset := by
  simp [StInv, hst]

theorem State.Inv.recognised {s : State} (h : s.Inv) : s.st.recognised = true := by
  obtain ⟨-, table, -⟩ := h
  cases hst : s.st with
  | unused n => simp [StInv, hst] at table
  | init | requesting | streaming | draining => rfl

/-- Beat `j` of frame `f` is the next the block emits. -/
inductive Due (s : State) (f : Frame) : Nat → Prop
  | first : s.st = .requesting → s.pend = some f → Due s f 0
  | later {j : Nat} : s.st = .streaming ∨ s.st = .draining → s.cur = some f → s.cursor = j * s.cfg.c.bytes →
      j + 1 < beatCount s.cfg.c f.len → Due s f (j + 1)

theorem Due.lt_beatCount {s : State} {f : Frame} {j : Nat} (h : Due s f j) : j < beatCount s.cfg.c f.len := by
  cases h with
  | first => exact beatCount_pos _ _
  | later _ _ _ hj => exact hj

/-- Within a frame the cursor is at a beat that is not the last. -/
theorem State.Inv.due_later {s : State} (h : s.Inv) (hst : s.st = .streaming ∨ s.st = .draining) :
    ∃ f j, s.cur = some f ∧ s.cursor = j * s.cfg.c.bytes ∧ j * s.cfg.c.bytes + s.cfg.c.bytes < f.len ∧
      Due s f (j + 1) := by
  obtain ⟨memory, table, aligned, -⟩ := h
  obtain ⟨f, hc, below⟩ : ∃ f, s.cur = some f ∧ (s.cursor < f.prefetchOffset ∨ s.cursor < f.lastOffset) := by
    rcases hst with hst | hst
    · obtain ⟨-, -, f, hc, hp⟩ := (stInv_streaming hst).mp table
      exact ⟨f, hc, .inl hp⟩
    · obtain ⟨-, -, f, hc, -, hl⟩ := (stInv_draining hst).mp table
      exact ⟨f, hc, .inr hl⟩
  obtain ⟨⟨last, prefetch⟩, -⟩ := slotWf_some.mp (hc ▸ (Memory.wf_iff.mp memory).1)
  obtain ⟨j, hj⟩ := Nat.dvd_of_mod_eq_zero aligned
  have hj : s.cursor = j * s.cfg.c.bytes := hj.trans (Nat.mul_comm _ _)
  have more : j * s.cfg.c.bytes + s.cfg.c.bytes < f.len := by omega
  have next : j + 1 < beatCount s.cfg.c f.len :=
    Nat.lt_of_not_le fun hle => absurd ((beatCount_le_succ_iff _ _ _).mp hle) (Nat.not_le.mpr more)
  exact ⟨f, j, hc, hj, more, .later hst hc hj next⟩

/-! ### The state after a beat -/

/-- Beat `j` of frame `f` has just been emitted (42_framestreamer R152, R154, R155). -/
structure AfterBeat (t : State) (f : Frame) (j : Nat) : Prop where
  cur : t.cur = some f
  cursor : t.cursor = j * t.cfg.c.bytes
  out : t.out = emittedBeat t.cfg f t.cursor (decide (j = 0))
  st : t.st = stAfterBeat f t.cursor
  req : t.req = decide (f.prefetchOffset ≤ t.cursor)
  pend : t.pend = none ↔ t.cursor < f.prefetchOffset

/-- Within a frame the advance does not saturate. -/
theorem advanceCursor_within {c : WidthClass} {n j cursor : Nat} (hj : cursor = j * c.bytes)
    (more : j * c.bytes + c.bytes < n) : advanceCursor c n cursor = (j + 1) * c.bytes := by
  rw [advanceCursor, hj, Nat.succ_mul]
  exact Nat.min_eq_left more.le

/-- From an invariant state an arm that begins a beat has come to the one that is due. -/
theorem BeginsBeat.due {i : Instr} {s u : State} {f : Frame} {b : Bool} {ack : Bool} (h : BeginsBeat i s u f b)
    (inv : s.Inv) (harm : armOf s.st ack = i) :
    ∃ j, Due s f j ∧ u.cursor = j * u.cfg.c.bytes ∧ b = decide (j = 0) ∧ u.pend = none := by
  cases h with
  | swap hp => exact ⟨0, .first (st_of_armOf inv.recognised harm) hp, (Nat.zero_mul _).symm, rfl, rfl⟩
  | advance ack hc hl =>
    have hst : s.st = .streaming := st_of_armOf inv.recognised harm
    obtain ⟨g, j, hg, hj, more, due⟩ := inv.due_later (.inl hst)
    cases hc.symm.trans hg
    exact ⟨j + 1, due, advanceCursor_within hj more, rfl, inv.pend_eq_none (.inr hst)⟩

/-- From an invariant state a completed arm that emits a beat emits the one that is due. -/
theorem Completes.afterBeat {s t : State} {ack : Bool} (h : Completes (armOf s.st ack) s t) (inv : s.Inv)
    (hemits : emits (armOf s.st ack) = true) : ∃ f j, Due s f j ∧ AfterBeat t f j := by
  generalize harm : armOf s.st ack = i at h hemits
  cases h with
  | firstFetch => cases hemits
  | hold => cases hemits
  | early start hp =>
    obtain ⟨j, due, hcursor, rfl, hpend⟩ := start.due inv harm
    exact ⟨_, j, due, start.cur, hcursor, rfl, rfl, (decide_eq_false (Nat.not_le.mpr hp)).symm, iff_of_true hpend hp⟩
  | fetch start hp =>
    obtain ⟨j, due, hcursor, rfl, -⟩ := start.due inv harm
    exact ⟨_, j, due, start.cur, hcursor, rfl, rfl, (decide_eq_true hp).symm, iff_of_false nofun (Nat.not_lt.mpr hp)⟩
  | @drain _ _ f hc =>
    have hst : s.st = .draining := st_of_armOf inv.recognised harm
    obtain ⟨g, j, hg, hj, more, due⟩ := inv.due_later (.inr hst)
    cases hc.symm.trans hg
    obtain ⟨-, table, -⟩ := inv
    obtain ⟨hpend, hreq, g, hg, hp, -⟩ := (stInv_draining hst).mp table
    cases hc.symm.trans hg
    have advance := advanceCursor_within hj more
    have due_at : f.prefetchOffset ≤ advanceCursor s.cfg.c f.len s.cursor := by
      rw [advance, Nat.succ_mul, ← hj]
      exact hp.trans (Nat.le_add_right _ _)
    exact ⟨f, j + 1, due, hc, advance, rfl, rfl, hreq.trans (decide_eq_true due_at).symm,
      iff_of_false hpend (Nat.not_lt.mpr due_at)⟩

/-- The table of reachable states holds after a beat. -/
theorem AfterBeat.stInv {t : State} {f : Frame} {j : Nat} (h : AfterBeat t f j) (wf : Memory.wf t = true)
    (hj : j < beatCount t.cfg.c f.len) : StInv t := by
  obtain ⟨hcur, hcursor, -, hst, hreq, hpend⟩ := h
  obtain ⟨⟨last, prefetch⟩, -⟩ := slotWf_some.mp (hcur ▸ (Memory.wf_iff.mp wf).1)
  by_cases hp : f.prefetchOffset ≤ t.cursor
  · have pending : t.pend ≠ none := fun hnone => Nat.not_lt.mpr hp (hpend.mp hnone)
    have requested : t.req = true := hreq.trans (decide_eq_true hp)
    rw [stAfterBeat_due hp] at hst
    by_cases hl : f.lastOffset ≤ t.cursor
    · rw [if_pos hl] at hst
      have room := (beatCount_le_succ_iff t.cfg.c f.len j).mpr (by omega)
      have at_last : j = beatCount t.cfg.c f.len - 1 := by omega
      refine (stInv_requesting hst).mpr ⟨pending, requested, fun hnone => ?_, fun g hg => ?_⟩
      · cases hcur.symm.trans hnone
      · cases hcur.symm.trans hg
        exact ⟨by rw [hcursor, ← at_last, Nat.mul_comm], hl⟩
    · rw [if_neg hl] at hst
      exact (stInv_draining hst).mpr ⟨pending, requested, f, hcur, hp, Nat.not_le.mp hl⟩
  · have hlt := Nat.not_le.mp hp
    rw [stAfterBeat_early hlt, if_neg (by omega)] at hst
    exact (stInv_streaming hst).mpr ⟨hpend.mpr hlt, hreq.trans (decide_eq_false hp), f, hcur, hlt⟩

theorem AfterBeat.inv {t : State} {f : Frame} {j : Nat} (h : AfterBeat t f j) (wf : Memory.wf t = true)
    (hj : j < beatCount t.cfg.c f.len) : t.Inv := by
  have aligned : t.cursor % t.cfg.c.bytes = 0 := h.cursor ▸ Nat.mul_mod_left _ _
  have inside : t.cursor ≤ f.len := h.cursor ▸ offset_le_of_lt_beatCount hj
  refine ⟨wf, h.stInv wf hj, aligned, fun g hg => ?_⟩
  cases h.cur.symm.trans hg
  exact inside

theorem Completes.cfg {i : Instr} {s t : State} (h : Completes i s t) : t.cfg = s.cfg := by
  cases h with
  | firstFetch => rfl
  | hold => rfl
  | early start _ => exact start.beforeFetch.cfg
  | fetch start => exact start.beforeFetch.cfg
  | drain => rfl

/-- INIT and REQ_HOLD lead to the row of REQUESTING, the cursor and the current slot as they were. -/
theorem Completes.inv_of_silent {s t : State} {ack : Bool} (h : Completes (armOf s.st ack) s t) (inv : s.Inv)
    (hsilent : emits (armOf s.st ack) = false) : t.Inv := by
  have wf := h.memory_wf inv.1
  generalize harm : armOf s.st ack = i at h hsilent
  have hst := st_of_armOf inv.recognised harm
  obtain ⟨-, table, cursor⟩ := inv
  cases h with
  | firstFetch =>
    obtain ⟨hcur, -, -, hcursor⟩ := (stInv_init hst).mp table
    refine ⟨wf, (stInv_requesting rfl).mpr ⟨nofun, rfl, fun _ => hcursor, fun g hg => ?_⟩, cursor⟩
    cases hcur.symm.trans hg
  | hold => exact ⟨wf, table, cursor⟩
  | early start _ => cases start.emits.symm.trans hsilent
  | fetch start => cases start.emits.symm.trans hsilent
  | drain => cases hsilent

theorem Completes.inv {s t : State} {ack : Bool} (h : Completes (armOf s.st ack) s t) (inv : s.Inv) : t.Inv := by
  cases hemits : emits (armOf s.st ack) with
  | false => exact h.inv_of_silent inv hemits
  | true =>
    obtain ⟨f, j, due, after⟩ := h.afterBeat inv hemits
    exact after.inv (h.memory_wf inv.1) (h.cfg ▸ due.lt_beatCount)

theorem inv_resetState (s : State) : (resetState s).Inv :=
  ⟨rfl, ⟨rfl, rfl, rfl, rfl⟩, Nat.zero_mod _, nofun⟩

theorem step_inv {s t : State} (inv : s.Inv) (h : step s = .next t) : t.Inv := by
  cases step_result h with
  | reset => exact inv_resetState s.tick
  | inactive => exact inv
  | raised => exact inv
  | completed _ _ done => exact Completes.inv (s := s.tick) done inv

/-- Settles O56: a reset has the invariant, and each result of a step keeps it. -/
theorem reachableInvariantKept : Obligations.ReachableInvariantKept :=
  ⟨fun _ _ => step_inv, fun _ before hr => Run.final_of_kept inv_resetState (fun _ _ => step_inv) hr before⟩

/-- Settles O60: `State.reset` and the state RESET leaves have every element at its reset value. -/
theorem invariantsAtReset : Obligations.InvariantsAtReset := by
  refine ⟨⟨rfl, ⟨rfl, rfl, rfl, rfl⟩, rfl, nofun⟩, rfl, outInv_of_idleBeat rfl, rfl, fun s t hrst h => ?_⟩
  cases (step_reset hrst false 0).symm.trans h
  exact ⟨inv_resetState s.tick, rfl, outInv_of_idleBeat rfl, rfl⟩

/-! ### The faults an invariant state can raise -/

/-- From an invariant state the only checks of an arm that can fail are those of a fetch into the empty slot; in
DRAINING none can. -/
theorem State.Inv.firstFault_armOf {s : State} (h : s.Inv) (ack : Bool) :
    firstFault (armOf s.st ack) s = none ∨
    (s.st ≠ .draining ∧ firstFault (armOf s.st ack) s = fetchFault s false) := by
  cases hst : s.st with
  | init =>
    have hp := h.pend_eq_none (.inl hst)
    exact .inr ⟨nofun, by simp [armOf, firstFault, hp]⟩
  | requesting =>
    cases ack with
    | false => exact .inl rfl
    | true =>
      obtain ⟨f, hp⟩ := Option.ne_none_iff_exists'.mp (h.pend_ne_none hst)
      by_cases h0 : f.prefetchOffset = 0
      · exact .inr ⟨nofun, by simp [armOf, firstFault, hp, h0]⟩
      · exact .inl (by simp [armOf, firstFault, hp, h0])
  | streaming =>
    have hp := h.pend_eq_none (.inr hst)
    obtain ⟨f, hc, last, room⟩ := h.cursor_add_lt hst
    have hl : ¬ f.lastOffset ≤ s.cursor := by omega
    by_cases hd : f.prefetchOffset ≤ min (s.cursor + s.cfg.c.bytes) f.len
    · exact .inr ⟨nofun, by rw [armOf, firstFault, hc, hp]; exact (if_neg hl).trans (if_pos hd)⟩
    · exact .inl (by rw [armOf, firstFault, hc, hp]; exact (if_neg hl).trans (if_neg hd))
  | draining =>
    obtain ⟨-, table, -⟩ := h
    obtain ⟨-, -, f, hc, -, hl⟩ := (stInv_draining hst).mp table
    exact .inl (by rw [armOf, firstFault, hc]; exact if_neg (Nat.not_le.mpr hl))
  | unused n => exact absurd h.recognised (by simp [hst, St.recognised])

theorem fetchFault_empty_ne_invariantFailure (s : State) (r : Reason) :
    fetchFault s false ≠ some (.invariantFailure r) := by
  cases ha : s.nextAnswer with
  | sourceError => simp [fetchFault, ha]
  | frame bs => cases hn : fitsSlot s.cfg bs.length <;> simp [fetchFault, ha, hn]

/-- An active step of an invariant state records what its arm raises. -/
theorem State.Inv.step_fault {s t : State} (inv : s.Inv) (hact : s.active = true) (h : step s = .next t) :
    t.fault = firstFault (armOf s.st s.edgeIn.ack) s.tick := by
  obtain ⟨hrst, hf, ha⟩ := active_iff.mp hact
  have recorded := exec_fault ((step_active hrst hf ha inv.recognised).symm.trans h) (armOf_ne_reset _ _)
  rw [recorded, State.tick_fault, hf, Option.or_none]

/-- Settles O42: the fault of such a step is one of a fetch into the empty slot, which makes no invariant check. -/
theorem noInvariantFailureFromInvariant : Obligations.NoInvariantFailureFromInvariant := by
  intro s t r inv hs h ht
  obtain ⟨hrst, ha⟩ := edge_of_raised hs h ht
  have first := (inv.step_fault (active_iff.mpr ⟨hrst, hs, ha⟩) h).symm.trans ht
  rcases State.Inv.firstFault_armOf (s := s.tick) inv s.edgeIn.ack with none | ⟨-, fetch⟩
  · cases none.symm.trans first
  · exact fetchFault_empty_ne_invariantFailure s.tick r (fetch.symm.trans first)

end Sys2Proof.Machine
end

section
/-!
PROOF. What an operation writes and what it leaves (10_state R21 to R28): the frame of each operation, and how frames
move through the slots in a step.
-/

namespace Sys2Proof.Machine

/-! ### The frame of an operation -/

/-- Every field `i` is not named to write is the same in `t` as in `s`. -/
structure Framed (i : Instr) (s t : State) : Prop where
  st : mayWrite .st i = false → t.st = s.st
  cur : mayWrite .cur i = false → t.cur = s.cur
  pend : mayWrite .pend i = false → t.pend = s.pend
  cursor : mayWrite .cursor i = false → t.cursor = s.cursor
  req : mayWrite .req i = false → t.req = s.req
  out : mayWrite .out i = false → t.out = s.out
  bits : mayWrite .bits i = false → t.bits = s.bits
  fault : mayWrite .fault i = false → t.fault = s.fault
  source : mayWrite .source i = false → t.answers = s.answers ∧ t.calls = s.calls
  tap : mayWrite .tap i = false → t.tap = s.tap
  cfg : t.cfg = s.cfg
  stimulus : t.stimulus = s.stimulus
  edges : t.edges = s.edges

theorem framed_refl (i : Instr) (s : State) : Framed i s s :=
  ⟨fun _ => rfl, fun _ => rfl, fun _ => rfl, fun _ => rfl, fun _ => rfl, fun _ => rfl, fun _ => rfl, fun _ => rfl,
    fun _ => ⟨rfl, rfl⟩, fun _ => rfl, rfl, rfl, rfl⟩

theorem framed_setOut {i : Instr} (hi : mayWrite .out i = true) (s : State) (b : Beat) : Framed i s (s.setOut b) :=
  { framed_refl i s with out := fun h => by cases hi.symm.trans h }

theorem framed_setTap {i : Instr} (hi : mayWrite .tap i = true) (s : State) (t : Tap) : Framed i s (s.setTap t) :=
  { framed_refl i s with tap := fun h => by cases hi.symm.trans h }

/-- The checks of an operation that does not call the source are invariant checks. -/
theorem firstFault_of_no_source {i : Instr} {s : State} {f : BlockFault} (h : firstFault i s = some f)
    (hi : mayWrite .source i = false) : ∃ r, f = .invariantFailure r := by
  cases i
  case swap =>
    cases hp : s.pend with
    | none => exact ⟨.pendingEmpty, by simpa [firstFault, hp] using h.symm⟩
    | some g => simp [firstFault, hp] at h
  case drain =>
    cases hc : s.cur with
    | none => exact ⟨.noCurrent, by simpa [firstFault, hc] using h.symm⟩
    | some g =>
      obtain ⟨-, hf⟩ : g.lastOffset ≤ s.cursor ∧ _ := by simpa [firstFault, hc] using h
      exact ⟨.cursorOutOfRange, hf.symm⟩
  case init | reqSwap | stream | fetch | reqDecide => cases hi
  all_goals cases h

theorem mayWrite_fault_of_firstFault {i : Instr} {s : State} {f : BlockFault} (h : firstFault i s = some f) :
    mayWrite .fault i = true := by
  cases i
  case init | reqSwap | stream | drain | fetch | swap | reqDecide => rfl
  all_goals cases h

/-- A fault writes `fault` and what the source is left with. -/
theorem framed_takeFault {i : Instr} {s : State} {f : BlockFault} {a : State} (h : firstFault i s = some f)
    (cause : RaisedFrom s f a) : Framed i s (takeFault s f a) := by
  refine { framed_refl i s with fault := fun hi => ?_, source := fun hi => ?_ }
  · cases (mayWrite_fault_of_firstFault h).symm.trans hi
  · obtain ⟨r, rfl⟩ := firstFault_of_no_source h hi
    cases cause with
    | invariant _ hans hcalls => exact ⟨hans, hcalls⟩

/-- An operation has its frame if it has it where it goes on. -/
theorem framed_of_commit {i : Instr} {s t : State} {x : Flow} (ends : EndsWith s (firstFault i s) x)
    (h : commit s x = .next t) (go : ∀ u, x = .go u → Framed i s u) : Framed i s t := by
  generalize hfirst : firstFault i s = o at ends
  cases ends with
  | goes => cases h; exact go _ rfl
  | raises cause => cases h; exact framed_takeFault hfirst cause
  | stops => cases h

/-! ### The operations that go on -/

theorem Completes.framed {i : Instr} {s t : State} (h : Completes i s t) : Framed i s t := by
  cases h with
  | firstFetch => exact { framed_refl _ _ with st := nofun, pend := nofun, req := nofun, out := nofun, source := nofun }
  | hold => exact framed_setOut rfl _ _
  | early start | fetch start =>
    cases start with
    | swap =>
      exact { framed_refl _ _ with
        st := nofun, cur := nofun, pend := nofun, cursor := nofun, req := nofun, out := nofun, bits := nofun
        source := nofun }
    | advance =>
      exact { framed_refl _ _ with
        st := nofun, pend := nofun, cursor := nofun, req := nofun, out := nofun, source := nofun }
  | drain => exact { framed_refl _ _ with st := nofun, cursor := nofun, out := nofun }

theorem ArmOutcome.framed {i : Instr} {s t : State} (h : ArmOutcome i s (.go t)) : Framed i s t := by
  cases h with
  | completes done => exact done.framed

theorem framed_fetchFlow {s t : State} (h : fetchFlow s = .go t) : Framed .fetch s t := by
  rcases fetchFlow_cases s with ⟨-, e⟩ | ⟨-, -, e⟩ | ⟨bs, -, -, -, e⟩ | ⟨bs, -, -, -, e⟩ <;> cases e.symm.trans h
  exact { framed_refl _ _ with pend := nofun, source := nofun }

theorem framed_swapFlow {s t : State} (h : swapFlow s = .go t) : Framed .swap s t := by
  cases hp : s.pend with
  | none => cases (swapFlow_none hp).symm.trans h
  | some f =>
    cases (swapFlow_some hp).symm.trans h
    exact { framed_refl _ _ with cur := nofun, pend := nofun }

theorem framed_beatFlow {s t : State} {b : Bool} (h : beatFlow b s = .go t) : Framed (.beat b) s t := by
  cases hc : s.cur with
  | none => cases (beatFlow_none hc).symm.trans h
  | some f =>
    cases (beatFlow_some hc).symm.trans h
    exact framed_setOut rfl _ _

theorem framed_nextStateFlow {s t : State} (h : nextStateFlow s = .go t) : Framed .nextState s t := by
  cases hc : s.cur with
  | none => cases (nextStateFlow_none hc).symm.trans h
  | some f =>
    cases (nextStateFlow_some hc).symm.trans h
    exact { framed_refl _ _ with st := nofun, out := nofun }

theorem framed_reqDecideFlow {s t : State} (h : reqDecideFlow s = .go t) : Framed .reqDecide s t := by
  cases hc : s.cur with
  | none => cases (reqDecideFlow_none hc).symm.trans h
  | some f =>
    by_cases hp : f.prefetchOffset ≤ s.cursor
    · obtain ⟨u, hu, ht⟩ := Flow.andThen_eq_go.mp ((reqDecideFlow_due hc hp).symm.trans h)
      cases ht
      obtain ⟨hst, hcur, -, hcursor, -, hout, hbits, hfault, -, htap, hcfg, hstim, hedges⟩ := framed_fetchFlow hu
      exact ⟨hst, hcur, nofun, hcursor, nofun, hout, hbits, nofun, nofun, htap, hcfg, hstim, hedges⟩
    · cases (reqDecideFlow_early hc (Nat.not_le.mp hp)).symm.trans h
      exact { framed_refl _ _ with pend := nofun, req := nofun, source := nofun }

theorem endsWith_initFlow (ack : Bool) (s : State) : EndsWith s (firstFault (.init ack) s) (initFlow s) :=
  (endsWith_fetchFlow s).andThen fun _ ht => .goes ht

theorem exec_framed {i : Instr} {s t : State} (h : exec i s = .next t) : Framed i s t := by
  cases i
  case init ack =>
    exact framed_of_commit (endsWith_initFlow ack s) h fun _ hu => (hu ▸ armOutcome_init ack s).framed
  case reqSwap => exact framed_of_commit (endsWith_reqSwapFlow s) h fun _ hu => (hu ▸ armOutcome_reqSwap s).framed
  case stream ack =>
    exact framed_of_commit (endsWith_streamFlow ack s) h fun _ hu => (hu ▸ armOutcome_stream ack s).framed
  case drain ack =>
    exact framed_of_commit (endsWith_drainFlow ack s) h fun _ hu => (hu ▸ armOutcome_drain ack s).framed
  case fetch => exact framed_of_commit (endsWith_fetchFlow s) h fun _ => framed_fetchFlow
  case swap => exact framed_of_commit (endsWith_swapFlow s) h fun _ => framed_swapFlow
  case beat b => exact framed_of_commit (endsWith_beatFlow b s) h fun _ => framed_beatFlow
  case reqDecide => exact framed_of_commit (endsWith_reqDecide s) h fun _ => framed_reqDecideFlow
  case nextState => exact framed_of_commit (endsWith_nextStateFlow rfl) h fun _ => framed_nextStateFlow
  case reset =>
    cases h
    exact { framed_refl _ _ with
      st := nofun, cur := nofun, pend := nofun, cursor := nofun, req := nofun, out := nofun, bits := nofun
      fault := nofun, tap := nofun }
  case idle | faulted => cases h; exact framed_refl _ _
  case reqHold | idleBeat => cases h; exact framed_setOut rfl _ _
  -- The rest write the tap.
  all_goals cases h; exact framed_setTap rfl _ _

/-- Settles O47: the frame of each operation, and an unwritten slot holds the same bytes. -/
theorem operationFrames : Obligations.OperationFrames := by
  intro i s t h
  obtain ⟨hst, hcur, hpend, hcursor, hreq, hout, hbits, hfault, hsource, htap, hcfg, hstim, hedges⟩ := exec_framed h
  exact ⟨hst, fun hi => ⟨hcur hi, fun f hf => ⟨f, (hcur hi).trans hf, fun _ => rfl⟩⟩, hpend, hcursor, hreq, hout,
    hbits, hfault, hsource, htap, hcfg, hstim, hedges⟩

/-! ### How frames move -/

/-- The slots and the source after a step without reset: a frame is kept, moved, or fetched with one call. -/
structure FramesMove (s t : State) : Prop where
  cur : t.cur = s.cur ∨ t.cur = s.pend
  pend : t.pend = s.pend ∨ t.pend = none ∨
    ∃ bs, s.nextAnswer = .frame bs ∧ t.calls = s.calls + 1 ∧ t.pend = some (threshFrame s.cfg.c bs)
  source : (t.calls = s.calls ∧ t.answers = s.answers) ∨ (t.calls = s.calls + 1 ∧ t.answers = s.answers.tail)

theorem BeginsBeat.slots {i : Instr} {s u : State} {f : Frame} {b : Bool} (h : BeginsBeat i s u f b) :
    (u.cur = s.cur ∨ u.cur = s.pend) ∧ (u.pend = s.pend ∨ u.pend = none) := by
  cases h with
  | swap hp => exact ⟨.inr hp.symm, .inr rfl⟩
  | advance => exact ⟨.inl rfl, .inl rfl⟩

theorem Completes.framesMove {i : Instr} {s t : State} (h : Completes i s t) : FramesMove s t := by
  cases h with
  | firstFetch _ _ ha => exact ⟨.inl rfl, .inr (.inr ⟨_, ha, rfl, rfl⟩), .inr ⟨rfl, rfl⟩⟩
  | hold => exact ⟨.inl rfl, .inl rfl, .inl ⟨rfl, rfl⟩⟩
  | early start =>
    obtain ⟨cur, pend⟩ := start.slots
    exact ⟨cur, pend.imp_right .inl, .inl ⟨start.beforeFetch.calls, start.beforeFetch.answers⟩⟩
  | fetch start _ _ ha =>
    obtain ⟨hcfg, -, hans, hcalls⟩ := start.beforeFetch
    exact ⟨start.slots.1, .inr (.inr ⟨_, ha, congrArg (· + 1) hcalls, rfl⟩),
      .inr ⟨congrArg (· + 1) hcalls, congrArg List.tail hans⟩⟩
  | drain => exact ⟨.inl rfl, .inl rfl, .inl ⟨rfl, rfl⟩⟩

/-- Wherever a fault is raised, the source was called at most once, and the slots stay. -/
theorem RaisedFrom.framesMove {s a : State} {f : BlockFault} (h : RaisedFrom s f a) :
    FramesMove s (takeFault s f a) := by
  refine ⟨.inl rfl, .inl rfl, ?_⟩
  cases h with
  | invariant _ hans hcalls => exact .inl ⟨hcalls, hans⟩
  | sourceError _ hans hcalls => exact .inr ⟨hcalls, hans⟩
  | tooLong _ _ _ hans hcalls => exact .inr ⟨hcalls, hans⟩

theorem srcCall_cases (s t : State) : srcCall s t = none ∨ srcCall s t = some (s.cfg.handler, s.cfg.payload) := by
  unfold srcCall
  split_ifs
  · exact .inl rfl
  · exact .inr rfl

/-- Using up an edge moves no frame. -/
theorem FramesMove.of_tick {s t : State} (h : FramesMove s.tick t) : FramesMove s t := ⟨h.cur, h.pend, h.source⟩

theorem step_framesMove {s t : State} (h : step s = .next t) (hrst : s.edgeIn.rst = false) : FramesMove s t := by
  cases step_result h with
  | reset hr => cases hr.symm.trans hrst
  | inactive => exact ⟨.inl rfl, .inl rfl, .inl ⟨rfl, rfl⟩⟩
  | raised _ cause => exact cause.framesMove.of_tick
  | completed _ _ done => exact done.framesMove.of_tick

/-- Settles O48: a reset empties both slots without a call, and in every other step the frames move whole. -/
theorem framesMoveWhole : Obligations.FramesMoveWhole := by
  intro s t h
  cases hrst : s.edgeIn.rst with
  | true =>
    cases (step_reset hrst false 0).symm.trans h
    exact ⟨.inr (.inr rfl), .inr (.inl rfl), .inl ⟨rfl, rfl⟩, srcCall_cases s _⟩
  | false =>
    obtain ⟨cur, pend, source⟩ := step_framesMove h hrst
    exact ⟨cur.imp_right .inl, pend, source, srcCall_cases s t⟩

end Sys2Proof.Machine
end

section
/-!
PROOF. DRAIN, and the first beat of a short frame (42_framestreamer R160, R164 to R166): what the arms leave when their
frame has the memory's form.
-/

namespace Sys2Proof.Machine

/-! ### DRAIN -/

theorem stAfterBeat_eq (f : Frame) (n : Nat) :
    stAfterBeat f n =
      if f.lastOffset ≤ n then .requesting else if f.prefetchOffset ≤ n then .draining else .streaming := by
  simp only [stAfterBeat, isLastBeat, prefetchDue, decide_eq_true_eq]

theorem exec_drain {s : State} {f : Frame} (ack : Bool) (hc : s.cur = some f) (hl : s.cursor < f.lastOffset) :
    exec (.drain ack) s = .next (beatState s f (advanceCursor s.cfg.c f.len s.cursor) false) :=
  congrArg (commit s) (drainFlow_some hc hl)

/-- Settles O37: DRAIN is the advance and the beat at the new cursor; in a reachable state the prefetch threshold has
been passed, so the cursor comes to the last beat. -/
theorem drainAdvancesWithoutDecision : Obligations.DrainAdvancesWithoutDecision := by
  refine ⟨fun s ack f n hc hl hn => ?_, fun s ack hc => congrArg (commit s) (drainFlow_none hc),
    fun s ack f hc hl => congrArg (commit s) (drainFlow_past hc hl), fun s inv hst => ?_⟩
  · subst hn
    rw [exec_drain ack hc hl, ← stAfterBeat_eq]
    rfl
  · obtain ⟨f, j, hc, hj, more, -⟩ := inv.due_later (.inr hst)
    obtain ⟨memory, table, -⟩ := inv
    obtain ⟨-, hreq, g, hg, hp, hl⟩ := (stInv_draining hst).mp table
    cases hc.symm.trans hg
    obtain ⟨⟨last, prefetch⟩, -⟩ := slotWf_some.mp (hc ▸ (Memory.wf_iff.mp memory).1)
    have reach : f.lastOffset ≤ s.cursor + s.cfg.c.bytes := by omega
    have unsaturated : min (s.cursor + s.cfg.c.bytes) f.len = s.cursor + s.cfg.c.bytes := by omega
    have at_last : f.lastOffset ≤ advanceCursor s.cfg.c f.len s.cursor := reach.trans_eq unsaturated.symm
    refine ⟨hreq, f, hc, hl, reach, unsaturated, fun ack t h => ?_⟩
    cases (exec_drain ack hc hl).symm.trans h
    exact ⟨decide_eq_true at_last, stAfterBeat_last at_last⟩

/-! ### The first beat of a short frame -/

theorem thresholds_of_pend {s : State} {f : Frame} (wf : Memory.wf s = true) (hp : s.pend = some f) :
    f.lastOffset = f.len - s.cfg.c.bytes ∧ f.prefetchOffset = f.len - 2 * s.cfg.c.bytes :=
  (slotWf_some.mp (hp ▸ (Memory.wf_iff.mp wf).2)).1

/-- A REQ_SWAP that raises nothing has fetched, if its frame is of at most two beats. -/
theorem exec_reqSwap_short {s t : State} {f : Frame} (hp : s.pend = some f) (h0 : f.prefetchOffset = 0)
    (h : exec .reqSwap s = .next t) (ht : t.fault = none) :
    ∃ bs, s.nextAnswer = .frame bs ∧
      t = { beatState (swapState s f).consumeAnswer f 0 true with
        req := true, pend := some (threshFrame s.cfg.c bs) } := by
  have outcome := commit_go_of_fault_none h ht ▸ armOutcome_reqSwap s
  cases outcome with
  | completes done =>
    cases done with
    | early start hlt =>
      cases start with
      | swap hp' => cases hp.symm.trans hp'; exact absurd h0 (Nat.ne_of_gt hlt)
    | fetch start _ _ ha =>
      cases start with
      | swap hp' => cases hp.symm.trans hp'; exact ⟨_, ha, rfl⟩

/-- Settles O49: such a frame has both thresholds at 0, so its first beat is its last. -/
theorem oneBeatFrameIsFirstAndLast : Obligations.OneBeatFrameIsFirstAndLast := by
  intro s t f wf hp hlen _ h ht
  obtain ⟨last, prefetch⟩ := thresholds_of_pend wf hp
  obtain ⟨bs, -, rfl⟩ := exec_reqSwap_short hp (by omega) h ht
  have at_last : f.lastOffset ≤ 0 := by omega
  exact ⟨rfl, rfl, decide_eq_true at_last, stAfterBeat_last at_last⟩

/-- Settles O50: such a frame has its prefetch threshold at 0. -/
theorem shortFramePrefetchesAtOnce : Obligations.ShortFramePrefetchesAtOnce := by
  intro s t f wf hp hlen _ h ht
  obtain ⟨-, prefetch⟩ := thresholds_of_pend wf hp
  obtain ⟨bs, ha, rfl⟩ := exec_reqSwap_short hp (by omega) h ht
  exact ⟨rfl, rfl, bs, ha, _, rfl, rfl⟩

/-- Settles O51: the empty frame has both thresholds at 0 and no byte for a lane. -/
theorem emptyFrameGivesOneZeroBeat : Obligations.EmptyFrameGivesOneZeroBeat := by
  intro s f bs wf hp hempty ha hn
  have hlen : f.len = 0 := congrArg List.length hempty
  obtain ⟨last, prefetch⟩ := thresholds_of_pend wf hp
  rw [hlen, Nat.zero_sub] at last prefetch
  refine ⟨_, (exec_reqSwap hp).trans (commit_beatDecideNext_fetch s true rfl prefetch.le rfl ha hn), rfl, ?_, rfl,
    if_pos last.le, rfl⟩
  have count : validCount s.cfg.c f.len 0 = 0 := by rw [hlen]; exact Nat.min_zero _
  have mod : encVc s.cfg.c (validCount s.cfg.c f.len 0) = 0 := by rw [count, encVc_zero]
  have dat : packWord s.cfg.c f.bytes 0 = 0 := packWord_past s.cfg.c hlen.le
  exact beat_ext rfl rfl rfl rfl (decide_eq_true last.le) mod dat

end Sys2Proof.Machine
end

section
/-!
PROOF. The beats of a frame along a run (42_framestreamer R167 to R176). Seen from a state in which beat `j` of a frame
is due, a step without reset either emits nothing and leaves it due, or emits it (`Due.after_step`); the statements
about runs are inductions over their steps.
-/

namespace Sys2Proof.Machine

/-! ### What a step emits -/

theorem selected_of_active {s : State} (hact : s.active = true) (hst : s.st.recognised = true) :
    s.selected = .op (armOf s.st s.edgeIn.ack) := by
  obtain ⟨hrst, hf, ha⟩ := active_iff.mp hact
  exact (selected_active hrst hf ha).trans (if_pos hst)

theorem Completes.fault {i : Instr} {s t : State} (h : Completes i s t) : t.fault = s.fault := by
  cases h with
  | firstFetch => rfl
  | hold => rfl
  | early start _ => exact start.beforeFetch.fault
  | fetch start => exact start.beforeFetch.fault
  | drain => rfl

/-- A completed step emits what its arm leaves on the output, if the arm is an emitting one. -/
theorem emitted_of_completed {s t : State} (h : step s = .next t) (hact : s.active = true)
    (hst : s.st.recognised = true) (done : Completes (armOf s.st s.edgeIn.ack) s.tick t) :
    emitted s = if emits (armOf s.st s.edgeIn.ack) then some t.out else none := by
  have selects := selectsBeat_of_selected (selected_of_active hact hst)
  have clean : t.fault = none := done.fault.trans (active_iff.mp hact).2.1
  simp [emitted, h, selects, clean]

theorem emitted_of_inactive {s : State} (h : s.active = false) : emitted s = none := by
  rcases selected_of_inactive h with ⟨flt, sel, e⟩ | ⟨sel, e⟩ | ⟨ack, st, e⟩ <;>
    exact emitted_of_selectsBeat_false (selectsBeat_of_selected e)

/-- Of the arms only INIT and REQ_HOLD emit no beat. -/
theorem armOf_of_emits_false {st : St} {ack : Bool} (h : emits (armOf st ack) = false) :
    st = .init ∨ armOf st ack = .reqHold := by
  cases st <;> cases ack <;> simp [armOf, emits] at h ⊢

theorem raises_of_takeFault {s a : State} {f : BlockFault} (h : step s = .next (takeFault s.tick f a))
    (hact : s.active = true) : raises s = true := by
  simp [raises, h, (active_iff.mp hact).2.1]

/-- REQ_HOLD writes the idle beat only. -/
theorem Completes.of_reqHold {s t : State} (h : Completes .reqHold s t) : t = s.setOut (idleBeatOf s.cfg) := by
  cases h with
  | hold => rfl
  | early start => cases start
  | fetch start => cases start

/-- Settles O55: an active step that completes without a beat is INIT, before any frame is current, or REQ_HOLD. -/
theorem bubblesAreHolds : Obligations.BubblesAreHolds := by
  intro s inv hraise
  refine ⟨fun hbubble => ?_, fun ⟨hsel, hcur⟩ => holdKeepsRequest.2.2 s hsel hcur⟩
  obtain ⟨⟨hact, hcur⟩, hsilent⟩ : (s.active = true ∧ s.cur.isSome = true) ∧ emitted s = none := by
    simpa [isBubble] using hbubble
  have hcur := Option.isSome_iff_ne_none.mp hcur
  obtain ⟨t, h, result⟩ := exists_step_result s
  cases result with
  | reset hrst => cases hrst.symm.trans (active_iff.mp hact).1
  | inactive _ hin => cases hin.symm.trans hact
  | raised => cases (raises_of_takeFault h hact).symm.trans hraise
  | completed _ hst done =>
    rw [emitted_of_completed h hact hst done] at hsilent
    rcases armOf_of_emits_false (by simpa using hsilent) with hinit | hhold
    · exact absurd ((stInv_init hinit).mp inv.2.1).1 hcur
    · exact ⟨hhold ▸ selected_of_active hact hst, hcur⟩

/-! ### The beat that is due -/

theorem frameBeats_drop (cfg : Config) (bytes : List Byte) {j : Nat} (hj : j < beatCount cfg.c bytes.length) :
    (frameBeats cfg bytes).drop j = frameBeat cfg bytes j :: (frameBeats cfg bytes).drop (j + 1) := by
  have hlen : j < (frameBeats cfg bytes).length := by simpa [frameBeats] using hj
  rw [List.drop_eq_getElem_cons hlen]
  simp [frameBeats]

theorem frameBeats_drop_last (cfg : Config) (bytes : List Byte) {j : Nat} (hj : beatCount cfg.c bytes.length ≤ j) :
    (frameBeats cfg bytes).drop j = [] :=
  List.drop_of_length_le (by simpa [frameBeats] using hj)

theorem Due.congr {s t : State} {f : Frame} {j : Nat} (h : Due s f j) (hst : t.st = s.st) (hcur : t.cur = s.cur)
    (hpend : t.pend = s.pend) (hcursor : t.cursor = s.cursor) (hcfg : t.cfg = s.cfg) : Due t f j := by
  cases h with
  | first h1 h2 => exact .first (hst.trans h1) (hpend.trans h2)
  | later h1 h2 h3 h4 =>
    exact .later (hst ▸ h1) (hcur.trans h2) (by rw [hcursor, hcfg, h3]) (by rw [hcfg]; exact h4)

/-- Only one beat is due. -/
theorem Due.unique {s : State} {f g : Frame} {j k : Nat} (h : Due s f j) (h' : Due s g k) : f = g ∧ j = k := by
  cases h with
  | first hst hp =>
    cases h' with
    | first _ hp' => exact ⟨Option.some.inj (hp.symm.trans hp'), rfl⟩
    | later hst' => rcases hst' with hst' | hst' <;> cases hst.symm.trans hst'
  | later hst hc hj =>
    cases h' with
    | first hst' => rcases hst with hst | hst <;> cases hst.symm.trans hst'
    | later _ hc' hk =>
      have same := Nat.eq_of_mul_eq_mul_right (bytes_pos _) (hj.symm.trans hk)
      exact ⟨Option.some.inj (hc.symm.trans hc'), congrArg (· + 1) same⟩

/-- The beat after `j` of the same frame is due, unless `j` was the last. -/
theorem AfterBeat.due {t : State} {f : Frame} {j : Nat} (h : AfterBeat t f j) (wf : Memory.wf t = true)
    (hj : j + 1 < beatCount t.cfg.c f.len) : Due t f (j + 1) := by
  obtain ⟨⟨last, -⟩, -⟩ := slotWf_some.mp (h.cur ▸ (Memory.wf_iff.mp wf).1)
  have more := offset_lt_of_lt_beatCount hj
  have hl : ¬ f.lastOffset ≤ t.cursor := by rw [h.cursor]; omega
  refine .later ?_ h.cur h.cursor hj
  rw [h.st, stAfterBeat_eq, if_neg hl]
  split_ifs
  · exact .inr rfl
  · exact .inl rfl

/-- After the last beat of a frame the block waits for the next. -/
theorem AfterBeat.st_of_last {t : State} {f : Frame} {j : Nat} (h : AfterBeat t f j) (wf : Memory.wf t = true)
    (hj : beatCount t.cfg.c f.len ≤ j + 1) : t.st = .requesting := by
  obtain ⟨⟨last, -⟩, -⟩ := slotWf_some.mp (h.cur ▸ (Memory.wf_iff.mp wf).1)
  have rest := (beatCount_le_succ_iff _ _ _).mp hj
  rw [h.st]
  exact stAfterBeat_last (by rw [h.cursor]; omega)

/-- What is seen after beat `j` of a frame is what the frame must give (42_framestreamer R168, R170, R173). -/
theorem AfterBeat.eq_frameBeat {t : State} {f : Frame} {j : Nat} (h : AfterBeat t f j) (wf : Memory.wf t = true)
    (hj : j < beatCount t.cfg.c f.len) : (t.out, t.req) = frameBeat t.cfg f.bytes j := by
  obtain ⟨hcur, hcursor, hout, -, hreq, -⟩ := h
  obtain ⟨⟨last, prefetch⟩, -⟩ := slotWf_some.mp (hcur ▸ (Memory.wf_iff.mp wf).1)
  have atLast := beatCount_le_succ_iff t.cfg.c f.len j
  have nextLast := beatCount_le_succ_iff t.cfg.c f.len (j + 1)
  rw [Nat.succ_mul] at nextLast
  rw [hcursor] at hout hreq
  have eof : isLastBeat f (j * t.cfg.c.bytes) = decide (j = beatCount t.cfg.c f.len - 1) :=
    decide_eq_decide.mpr (by omega)
  have req : t.req = decide (beatCount t.cfg.c f.len - 1 ≤ j + 1) := hreq.trans (decide_eq_decide.mpr (by omega))
  have mod := (frameBeat_mod t.cfg f.bytes hj).symm
  exact Prod.ext (hout.trans (beat_ext rfl rfl rfl rfl eof mod rfl)) req

/-- With beat `j` of `f` due, a step without reset emits nothing and leaves it due, or emits it. -/
theorem Due.after_step {s t : State} {f : Frame} {j : Nat} (due : Due s f j) (inv : s.Inv) (hrst : s.edgeIn.rst = false)
    (h : step s = .next t) :
    (emitted s = none ∧ Due t f j) ∨ (emitted s = some t.out ∧ AfterBeat t f j) := by
  cases step_result h with
  | reset hr => cases hr.symm.trans hrst
  | inactive _ hin => exact .inl ⟨emitted_of_inactive hin, due.congr rfl rfl rfl rfl rfl⟩
  | raised => exact .inl ⟨emitted_of_fault h rfl, due.congr rfl rfl rfl rfl rfl⟩
  | completed hact hst done =>
    have hemitted := emitted_of_completed h hact hst done
    cases hemits : emits (armOf s.st s.edgeIn.ack) with
    | true =>
      obtain ⟨g, k, due', after⟩ := Completes.afterBeat (s := s.tick) done inv hemits
      obtain ⟨rfl, rfl⟩ := due.unique (due'.congr rfl rfl rfl rfl rfl)
      exact .inr ⟨hemitted.trans (if_pos hemits), after⟩
    | false =>
      refine .inl ⟨hemitted.trans (if_neg (Bool.not_eq_true _ ▸ hemits)), ?_⟩
      rcases armOf_of_emits_false hemits with hinit | hhold
      · cases due with
        | first hst' => cases hinit.symm.trans hst'
        | later hst' => rcases hst' with hst' | hst' <;> cases hinit.symm.trans hst'
      · rw [hhold] at done
        exact done.of_reqHold ▸ due.congr rfl rfl rfl rfl rfl

/-! ### The edges to come -/

@[simp] theorem edgeInAfter_zero (s : State) : s.edgeInAfter 0 = s.edgeIn := by
  cases hs : s.stimulus <;> simp [State.edgeInAfter, State.edgeIn, hs]

/-- A step uses up one edge. -/
theorem step_edgeInAfter {s t : State} (h : step s = .next t) (j : Nat) : t.edgeInAfter j = s.edgeInAfter (j + 1) := by
  obtain ⟨hstim, hedges⟩ : t.stimulus = s.tick.stimulus ∧ t.edges = s.tick.edges := by
    rcases step_eq_next.mp h with ⟨i, -, hi⟩ | ⟨-, rfl⟩
    · exact ⟨(exec_framed hi).stimulus, (exec_framed hi).edges⟩
    · exact ⟨rfl, rfl⟩
  simp only [State.edgeInAfter, hstim, hedges, State.tick_stimulus, State.tick_edges, List.getElem?_tail,
    Nat.add_assoc, Nat.add_comm 1 j]

theorem noResetFor_succ {k : Nat} {s t : State} (h : noResetFor (k + 1) s) (ht : step s = .next t) :
    s.edgeIn.rst = false ∧ noResetFor k t :=
  ⟨edgeInAfter_zero s ▸ h 0 (Nat.succ_pos k), fun j hj => step_edgeInAfter ht j ▸ h (j + 1) (Nat.succ_lt_succ hj)⟩

/-! ### A frame along a run -/

/-- From where beat `j` is due, the beats seen are the first of the frame's beats from `j` on. -/
theorem observe_due_prefix (k : Nat) : ∀ {s : State} {f : Frame} {j : Nat}, s.Inv → Due s f j → noResetFor k s →
    (observe k s).take (beatCount s.cfg.c f.len - j) <+: (frameBeats s.cfg f.bytes).drop j := by
  induction k with
  | zero => exact fun _ _ _ => by simp
  | succ k ih =>
    intro s f j inv due quiet
    obtain ⟨t, h, -⟩ := exists_step_result s
    obtain ⟨hrst, quiet⟩ := noResetFor_succ quiet h
    have inv' := step_inv inv h
    have hj := due.lt_beatCount
    rw [← step_cfg h] at hj ⊢
    rcases due.after_step inv hrst h with ⟨silent, due'⟩ | ⟨beat, after⟩
    · rw [observe_succ_none k h silent]
      exact ih inv' due' quiet
    · have left : beatCount t.cfg.c f.len - j = beatCount t.cfg.c f.len - (j + 1) + 1 := by omega
      rw [observe_succ_some k h beat, after.eq_frameBeat inv'.1 hj, left, List.take_succ_cons,
        frameBeats_drop t.cfg f.bytes hj, List.cons_prefix_cons]
      refine ⟨rfl, ?_⟩
      by_cases hnext : j + 1 < beatCount t.cfg.c f.len
      · exact ih inv' (after.due inv'.1 hnext) quiet
      · rw [Nat.sub_eq_zero_of_le (Nat.not_lt.mp hnext)]
        exact List.nil_prefix

/-- Settles O52: with a frame pending its first beat is due. -/
theorem frameBeatsInOrder : Obligations.FrameBeatsInOrder :=
  fun k _ _ inv _ hst hp quiet => observe_due_prefix k inv (.first hst hp) quiet

/-! ### A frame without a pause -/

/-- The source answers the next call with a frame the slot holds. -/
def AnswersFrame (s : State) : Prop := ∃ bs, s.nextAnswer = .frame bs ∧ fitsSlot s.cfg bs.length = true

theorem fetchFault_of_answersFrame {s : State} (h : AnswersFrame s) : fetchFault s false = none := by
  obtain ⟨bs, ha, hn⟩ := h
  simp [fetchFault, ha, hn]

/-- An arm that goes on to STREAMING has made no call: a fetch goes to DRAINING or REQUESTING. -/
theorem Completes.answersFrame {i : Instr} {s t : State} (h : Completes i s t) (hst : t.st = .streaming)
    (ans : AnswersFrame s) : AnswersFrame t := by
  have keeps (hans : t.answers = s.answers) (hcalls : t.calls = s.calls) : AnswersFrame t := by
    rw [AnswersFrame, nextAnswer_congr hans hcalls, h.cfg]
    exact ans
  cases h with
  | firstFetch => cases hst
  | hold => exact ans
  | early start _ => exact keeps start.beforeFetch.answers start.beforeFetch.calls
  | @fetch _ _ _ f _ _ _ hp =>
    have hst := (stAfterBeat_due hp).symm.trans hst
    split_ifs at hst
  | drain => exact ans

/-- DRAINING is left with the frame's last beat. -/
theorem State.Inv.st_of_drain {s t : State} (inv : s.Inv) (hst : s.st = .draining) (hact : s.active = true)
    (h : step s = .next t) : t.st = .requesting := by
  obtain ⟨hrst, hf, ha⟩ := active_iff.mp hact
  have arm := step_active hrst hf ha inv.recognised
  rw [hst] at arm
  obtain ⟨-, f, -, -, -, -, last⟩ := drainAdvancesWithoutDecision.2.2.2 s.tick inv hst
  exact (last s.edgeIn.ack t (arm.symm.trans h)).2

theorem Due.emits_armOf {s : State} {f : Frame} {j : Nat} {ack : Bool} (due : Due s f j)
    (hack : s.st = .requesting → ack = true) : emits (armOf s.st ack) = true := by
  cases due with
  | first hst => rw [hst, hack hst]; rfl
  | later hst => rcases hst with hst | hst <;> rw [hst] <;> rfl

/-- An edge that makes no pause, being active, with `ack` where the block waits for it and a frame from the source
where it may fetch, shows the beat that is due. -/
theorem Due.step_without_pause {s : State} {f : Frame} {j : Nat} (due : Due s f j) (inv : s.Inv)
    (hact : s.active = true) (hack : s.st = .requesting → s.edgeIn.ack = true)
    (ans : s.st ≠ .draining → AnswersFrame s) :
    ∃ t, step s = .next t ∧ t.fault = none ∧ emitted s = some t.out ∧ AfterBeat t f j ∧
      (t.st = .streaming → AnswersFrame t) := by
  obtain ⟨hrst, -, -⟩ := active_iff.mp hact
  obtain ⟨t, h, result⟩ := exists_step_result s
  have clean : t.fault = none := by
    rw [inv.step_fault hact h]
    rcases State.Inv.firstFault_armOf (s := s.tick) inv s.edgeIn.ack with none | ⟨hst, fetch⟩
    · exact none
    · exact fetch.trans (fetchFault_of_answersFrame (s := s.tick) (ans hst))
  cases result with
  | reset hr => cases hr.symm.trans hrst
  | inactive _ hin => cases hin.symm.trans hact
  | raised => cases clean
  | completed _ hst done =>
    have beat := (emitted_of_completed h hact hst done).trans (if_pos (due.emits_armOf hack))
    rcases due.after_step inv hrst h with ⟨silent, -⟩ | ⟨-, after⟩
    · cases silent.symm.trans beat
    · refine ⟨t, h, clean, beat, after, fun hstream => done.answersFrame hstream (ans fun hd => ?_)⟩
      cases hstream.symm.trans (inv.st_of_drain hd hact h)

/-- What the steps show when each emits a beat. -/
def beatViews (l : List (Beat × Bool)) : List StepView := l.map fun p => { beat := some p.1, req := p.2 }

theorem filterMap_beatViews (l : List (Beat × Bool)) : (beatViews l).filterMap StepView.beatWithReq = l := by
  simp [beatViews, List.filterMap_map, Function.comp_def, StepView.beatWithReq]

theorem Due.ne_requesting {s : State} {f : Frame} {j : Nat} (due : Due s f (j + 1)) : s.st ≠ .requesting := by
  cases due with
  | later hst => rcases hst with hst | hst <;> simp [hst]

/-- A block that is to show the last `n` beats of `f`, from beat `j` on, without a pause: it waits for the next frame if
`n = 0`, and else beat `j` is due and nothing holds it up. -/
structure OnTrack (s : State) (f : Frame) (j n : Nat) : Prop where
  inv : s.Inv
  fault : s.fault = none
  count : j + n = beatCount s.cfg.c f.len
  done : n = 0 → s.st = .requesting
  due : n ≠ 0 → Due s f j
  ack : n ≠ 0 → s.st = .requesting → s.edgeIn.ack = true
  answers : n ≠ 0 → s.st ≠ .draining → AnswersFrame s
  edges : ∀ i, i < n → (s.edgeInAfter i).rst = false ∧ (s.edgeInAfter i).avail = true

/-- A step on the track shows beat `j` and stays on it. -/
theorem OnTrack.step {s : State} {f : Frame} {j n : Nat} (h : OnTrack s f j (n + 1)) :
    ∃ t, step s = .next t ∧ emitted s = some t.out ∧ (t.out, t.req) = frameBeat t.cfg f.bytes j ∧
      OnTrack t f (j + 1) n := by
  obtain ⟨inv, hf, hcount, -, due, hack, ans, edges⟩ := h
  have due := due (Nat.succ_ne_zero n)
  obtain ⟨hrst, havail⟩ := edgeInAfter_zero s ▸ edges 0 (Nat.succ_pos n)
  obtain ⟨t, ht, clean, beat, after, ans'⟩ := due.step_without_pause inv (active_iff.mpr ⟨hrst, hf, havail⟩)
    (hack (Nat.succ_ne_zero n)) (ans (Nat.succ_ne_zero n))
  have inv' := step_inv inv ht
  rw [← step_cfg ht] at hcount
  have next (hn : n ≠ 0) : Due t f (j + 1) := after.due inv'.1 (by omega)
  refine ⟨t, ht, beat, after.eq_frameBeat inv'.1 (by omega), inv', clean, by omega,
    fun hn => after.st_of_last inv'.1 (by omega), next, fun hn hreq => absurd hreq (next hn).ne_requesting,
    fun hn hst => ?_, fun i hi => step_edgeInAfter ht i ▸ edges (i + 1) (Nat.succ_lt_succ hi)⟩
  cases next hn with
  | later hst' => exact ans' (hst'.resolve_right hst)

/-- On the track each of the next `n` steps shows a beat, and the last leaves the block waiting for the next frame. -/
theorem OnTrack.observation (n : Nat) : ∀ {s : State} {f : Frame} {j : Nat}, OnTrack s f j n →
    (observation n s).steps = beatViews ((frameBeats s.cfg f.bytes).drop j) ∧
    (observation n s).final.st = .requesting ∧ (observation n s).final.fault = none := by
  induction n with
  | zero =>
    intro s f j h
    rw [frameBeats_drop_last s.cfg f.bytes (h.count.symm.trans (Nat.add_zero j)).le]
    exact ⟨rfl, h.done rfl, h.fault⟩
  | succ n ih =>
    intro s f j h
    have hj : j < beatCount s.cfg.c f.len := by have := h.count; omega
    obtain ⟨t, ht, beat, shown, track⟩ := h.step
    obtain ⟨steps, final⟩ := ih track
    rw [observation_succ n ht, frameBeats_drop s.cfg f.bytes hj, ← step_cfg ht, ← shown]
    refine ⟨?_, final⟩
    rw [steps, beat]
    rfl

/-- Settles O53: from the pending frame on the block is on the track of its `B(N)` beats. -/
theorem frameTakesOneStepPerBeat : Obligations.FrameTakesOneStepPerBeat := by
  intro s f bs inv hf hst hp ha hn hack edges
  rw [edgeInAfter_zero] at hack
  have track : OnTrack s f 0 (beatCount s.cfg.c f.len) :=
    ⟨inv, hf, Nat.zero_add _, fun _ => hst, fun _ => .first hst hp, fun _ _ => hack, fun _ _ => ⟨bs, ha, hn⟩, edges⟩
  obtain ⟨steps, final, clean⟩ := track.observation
  refine ⟨?_, steps, final, Option.isNone_iff_eq_none.mpr clean⟩
  rw [observe, steps, filterMap_beatViews, List.drop_zero]

end Sys2Proof.Machine
end

section
/-!
PROOF. The beats do not depend on the harness (42_framestreamer R177). What of the block the arms read is its core: all
but the output register, the harness's inputs and the tap. A paused step keeps the core and emits nothing; the other
steps are a function of it. So of two runs with one core, one shows the start of what the other shows.
-/

namespace Sys2Proof.Machine

/-! ### The core, and what reads no more of the block -/

/-- The block without the output register, the harness's inputs and the tap. -/
def State.core (s : State) : State :=
  { s with out := idleBeatOf s.cfg, stimulus := [], edges := 0, tap := .nothing }

theorem core_of_sameBlock {s t : State} (h : sameBlock s t) : s.core = t.core := by
  obtain ⟨hcfg, hst, hcur, hpend, hcursor, hreq, -, hbits, hfault, hans, hcalls⟩ := h
  simp only [State.core, hcfg, hst, hcur, hpend, hcursor, hreq, hbits, hfault, hans, hcalls]

/-- The flow that ends as this one does, in the core of its state. -/
def Flow.core : Flow → Flow
  | .go s => .go s.core
  | .raised f s => .raised f s.core
  | .emptyRead => .emptyRead

/-- What an operation does to the core depends on the core only. -/
def ReadsCore (k : State → Flow) : Prop := ∀ s, (k s.core).core = (k s).core

theorem ReadsCore.congr {k : State → Flow} (hk : ReadsCore k) {s t : State} (h : s.core = t.core) :
    (k s).core = (k t).core := by
  rw [← hk s, h, hk t]

theorem core_andThen {x y : Flow} {l : State → Flow} (h : x.core = y.core) (hl : ReadsCore l) :
    (x.andThen l).core = (y.andThen l).core := by
  cases x with
  | go s =>
    cases y with
    | go t => exact hl.congr (Flow.go.inj h)
    | raised | emptyRead => cases h
  | raised f s =>
    cases y with
    | raised g t => exact h
    | go | emptyRead => cases h
  | emptyRead =>
    cases y with
    | emptyRead => rfl
    | go | raised => cases h

theorem ReadsCore.andThen {k l : State → Flow} (hk : ReadsCore k) (hl : ReadsCore l) :
    ReadsCore fun s => (k s).andThen l :=
  fun s => core_andThen (hk s) hl

theorem readsCore_write {f : State → State} (h : ∀ s, (f s.core).core = (f s).core) : ReadsCore fun s => .go (f s) :=
  fun s => congrArg Flow.go (h s)

theorem readsCore_fetchFlow : ReadsCore fetchFlow := by
  intro s
  rcases fetchFlow_cases s with ⟨hp, e⟩ | ⟨hp, ha, e⟩ | ⟨bs, hp, ha, hn, e⟩ | ⟨bs, hp, ha, hn, e⟩
  · obtain ⟨g, hg⟩ := Option.ne_none_iff_exists'.mp hp
    rw [e, fetchFlow_occupied (s := s.core) hg]
    rfl
  · rw [e, fetchFlow_sourceError (s := s.core) hp ha]
    rfl
  · rw [e, fetchFlow_frame (s := s.core) hp ha hn]
    rfl
  · rw [e, fetchFlow_tooLong (s := s.core) hp ha hn]
    rfl

theorem readsCore_swapFlow : ReadsCore swapFlow := by
  intro s
  cases hp : s.pend with
  | none => rw [swapFlow_none hp, swapFlow_none (s := s.core) hp]; rfl
  | some f => rw [swapFlow_some hp, swapFlow_some (s := s.core) hp]; rfl

theorem readsCore_beatFlow (b : Bool) : ReadsCore (beatFlow b) := by
  intro s
  cases hc : s.cur with
  | none => rw [beatFlow_none hc, beatFlow_none (s := s.core) hc]
  | some f => rw [beatFlow_some hc, beatFlow_some (s := s.core) hc]; rfl

theorem readsCore_nextStateFlow : ReadsCore nextStateFlow := by
  intro s
  cases hc : s.cur with
  | none => rw [nextStateFlow_none hc, nextStateFlow_none (s := s.core) hc]
  | some f => rw [nextStateFlow_some hc, nextStateFlow_some (s := s.core) hc]; rfl

theorem readsCore_reqDecideFlow : ReadsCore reqDecideFlow := by
  intro s
  cases hc : s.cur with
  | none => rw [reqDecideFlow_none hc, reqDecideFlow_none (s := s.core) hc]
  | some f =>
    by_cases hp : f.prefetchOffset ≤ s.cursor
    · rw [reqDecideFlow_due hc hp, reqDecideFlow_due (s := s.core) hc hp]
      exact readsCore_fetchFlow.andThen (readsCore_write fun _ => rfl) s
    · have hp := Nat.not_le.mp hp
      rw [reqDecideFlow_early hc hp, reqDecideFlow_early (s := s.core) hc hp]
      rfl

theorem startFrameFlow_none {s : State} (h : s.cur = none) : startFrameFlow s = .emptyRead := by
  simp [startFrameFlow, h]

theorem startFrameFlow_some {s : State} {f : Frame} (h : s.cur = some f) :
    startFrameFlow s = .go ((s.setCursor 0).setBits (bitsHint f.len)) := by
  simp [startFrameFlow, h]

theorem readsCore_startFrameFlow : ReadsCore startFrameFlow := by
  intro s
  cases hc : s.cur with
  | none => rw [startFrameFlow_none hc, startFrameFlow_none (s := s.core) hc]
  | some f => rw [startFrameFlow_some hc, startFrameFlow_some (s := s.core) hc]; rfl

theorem readsCore_advanceFlow : ReadsCore advanceFlow := by
  intro s
  cases hc : s.cur with
  | none => rw [advanceFlow_none hc, advanceFlow_none (s := s.core) hc]; rfl
  | some f =>
    by_cases hl : f.lastOffset ≤ s.cursor
    · rw [advanceFlow_past hc hl, advanceFlow_past (s := s.core) hc hl]
      rfl
    · have hl := Nat.not_le.mp hl
      rw [advanceFlow_some hc hl, advanceFlow_some (s := s.core) hc hl]
      rfl

/-! ### The arms -/

theorem readsCore_initFlow : ReadsCore initFlow :=
  readsCore_fetchFlow.andThen (readsCore_write fun _ => rfl)

theorem readsCore_reqSwapFlow : ReadsCore reqSwapFlow :=
  readsCore_swapFlow.andThen (readsCore_startFrameFlow.andThen ((readsCore_beatFlow true).andThen
    (readsCore_reqDecideFlow.andThen readsCore_nextStateFlow)))

theorem readsCore_streamFlow : ReadsCore streamFlow :=
  readsCore_advanceFlow.andThen ((readsCore_beatFlow false).andThen
    (readsCore_reqDecideFlow.andThen readsCore_nextStateFlow))

theorem readsCore_drainFlow : ReadsCore drainFlow :=
  readsCore_advanceFlow.andThen ((readsCore_beatFlow false).andThen readsCore_nextStateFlow)

theorem ReadsCore.commit {k : State → Flow} (hk : ReadsCore k) {s t s' t' : State} (h : s.core = t.core)
    (hs : commit s (k s) = .next s') (ht : commit t (k t) = .next t') : s'.core = t'.core := by
  have e := hk.congr h
  rcases commit_eq_next.mp hs with hx | ⟨f, a, hx, rfl⟩ <;>
    rcases commit_eq_next.mp ht with hy | ⟨g, b, hy, rfl⟩ <;> rw [hx, hy] at e
  · exact Flow.go.inj e
  · cases e
  · cases e
  · obtain ⟨rfl, hcore⟩ := Flow.raised.inj e
    show takeFault s.core f a.core = takeFault t.core f b.core
    rw [h, hcore]

/-- The arm of a state that waits for no acknowledgement does to the core what the core says. -/
theorem exec_armOf_core {st : St} {s t s' t' : State} (h : s.core = t.core) (hs : exec (armOf st true) s = .next s')
    (ht : exec (armOf st true) t = .next t') : s'.core = t'.core := by
  cases st with
  | init => exact readsCore_initFlow.commit h hs ht
  | requesting => exact readsCore_reqSwapFlow.commit h hs ht
  | streaming => exact readsCore_streamFlow.commit h hs ht
  | draining => exact readsCore_drainFlow.commit h hs ht
  | unused n => exact readsCore_drainFlow.commit h hs ht

/-! ### Paused and moving steps -/

/-- The next edge moves the block: it is active, and acknowledges where the block waits for that. -/
def State.moves (s : State) : Prop := s.active = true ∧ (s.st = .requesting → s.edgeIn.ack = true)

theorem step_of_moves {s : State} (h : s.moves) (hst : s.st.recognised = true) :
    step s = exec (armOf s.st true) s.tick := by
  obtain ⟨hact, hack⟩ := h
  obtain ⟨hrst, hf, ha⟩ := active_iff.mp hact
  rw [step_active hrst hf ha hst]
  by_cases hreq : s.st = .requesting
  · rw [hack hreq]
  · exact exec_armOf_ack hreq _ _ _

/-- A step without reset that does not move the block keeps its core and emits nothing. -/
theorem step_paused {s t : State} (h : step s = .next t) (hrst : s.edgeIn.rst = false) (hm : ¬ s.moves) :
    t.core = s.core ∧ emitted s = none := by
  cases hact : s.active with
  | false =>
    cases (step_inactive hrst hact).symm.trans h
    exact ⟨rfl, emitted_of_inactive hact⟩
  | true =>
    obtain ⟨hst, hack⟩ : s.st = .requesting ∧ s.edgeIn.ack = false := by
      simpa [State.moves, hact] using hm
    have sel : s.selected = .op .reqHold := by
      rw [selected_of_active hact (by rw [hst]; rfl), hst, hack]
      rfl
    cases (step_of_selected sel).symm.trans h
    exact ⟨rfl, emitted_of_selectsBeat_false (selectsBeat_of_selected sel)⟩

theorem armOf_eq_reqSwap_iff {st : St} {ack : Bool} (hack : st = .requesting → ack = true) :
    armOf st ack = .reqSwap ↔ st = .requesting := by
  cases st <;> cases ack <;> simp_all [armOf]

/-- What a step that moves the block emits is a function of its state register and of the core after the step. -/
theorem emitted_of_moves {s t : State} (h : step s = .next t) (hm : s.moves) :
    emitted s = if s.st = .init ∨ t.fault ≠ none then none
      else t.cur.map fun f => emittedBeat t.cfg f t.cursor (decide (s.st = .requesting)) := by
  obtain ⟨hact, hack⟩ := hm
  cases step_result h with
  | reset hr => cases hr.symm.trans (active_iff.mp hact).1
  | inactive _ hin => cases hin.symm.trans hact
  | raised => rw [emitted_of_fault h rfl, if_pos (.inr nofun)]
  | completed _ hst done =>
    have clean : t.fault = none := done.fault.trans (active_iff.mp hact).2.1
    rw [emitted_of_completed h hact hst done]
    rcases done.out with ⟨hsilent, -⟩ | ⟨hemits, f, hcur, hout⟩
    · have hinit : s.st = .init := (armOf_of_emits_false hsilent).resolve_right fun hhold => by
        have hreq : s.st = .requesting := st_of_armOf hst hhold
        cases hhold.symm.trans ((armOf_eq_reqSwap_iff hack).mpr hreq)
      rw [if_neg (by simp [hsilent]), if_pos (.inl hinit)]
    · have hinit : s.st ≠ .init := fun hinit => by rw [hinit] at hemits; cases hemits
      rw [if_pos hemits, if_neg (by simp [hinit, clean]), hcur, hout]
      simp only [armOf_eq_reqSwap_iff hack, Option.map_some]

/-- Two moving steps from one core emit the same and lead to one core. -/
theorem step_moves_core {s t s' t' : State} (hcore : s.core = t.core) (hs : s.moves) (ht : t.moves)
    (hs' : step s = .next s') (ht' : step t = .next t') : s'.core = t'.core ∧ emitted s = emitted t := by
  have hst : s.st = t.st := (congrArg State.st hcore :)
  have next : s'.core = t'.core := by
    cases hu : s.st.recognised with
    | true =>
      have armS := (step_of_moves hs hu).symm.trans hs'
      have armT := (step_of_moves ht (hst ▸ hu)).symm.trans ht'
      exact exec_armOf_core (s := s.tick) (t := t.tick) hcore armS (hst ▸ armT)
    | false =>
      obtain ⟨hrst, hf, ha⟩ := active_iff.mp hs.1
      cases (step_unrecognised hrst hf ha hu).symm.trans hs'
      obtain ⟨hrst, hf, ha⟩ := active_iff.mp ht.1
      cases (step_unrecognised hrst hf ha (hst ▸ hu)).symm.trans ht'
      exact congrArg (fun u => { u with fault := some (.invariantFailure .unrecognisedState) }) hcore
  have hfault : s'.fault = t'.fault := (congrArg State.fault next :)
  have hcur : s'.cur = t'.cur := (congrArg State.cur next :)
  have hcfg : s'.cfg = t'.cfg := (congrArg State.cfg next :)
  have hcursor : s'.cursor = t'.cursor := (congrArg State.cursor next :)
  exact ⟨next, by rw [emitted_of_moves hs' hs, emitted_of_moves ht' ht, hst, hfault, hcur, hcfg, hcursor]⟩

/-! ### Two runs -/

/-- Two moving steps add the same to what is seen. -/
theorem observe_succ_of_moves {s t s' t' : State} {j k : Nat} (hs' : step s = .next s') (ht' : step t = .next t')
    (hcore : s'.core = t'.core) (hemitted : emitted s = emitted t)
    (h : observe j s' <+: observe k t' ∨ observe k t' <+: observe j s') :
    observe (j + 1) s <+: observe (k + 1) t ∨ observe (k + 1) t <+: observe (j + 1) s := by
  have hreq : s'.req = t'.req := (congrArg State.req hcore :)
  cases hb : emitted t with
  | none =>
    rw [observe_succ_none j hs' (hemitted.trans hb), observe_succ_none k ht' hb]
    exact h
  | some b =>
    rw [observe_succ_some j hs' (hemitted.trans hb), observe_succ_some k ht' hb, hreq]
    exact h.imp (List.prefix_cons_inj _).mpr (List.prefix_cons_inj _).mpr

theorem observe_prefix_of_core (j : Nat) : ∀ (k : Nat) {s t : State}, s.core = t.core → noResetFor j s →
    noResetFor k t → observe j s <+: observe k t ∨ observe k t <+: observe j s := by
  induction j with
  | zero => exact fun _ _ _ _ _ _ => .inl List.nil_prefix
  | succ j ihj =>
    intro k
    induction k with
    | zero => exact fun _ _ _ => .inr List.nil_prefix
    | succ k ihk =>
      intro s t hcore quietS quietT
      obtain ⟨s', hs', -⟩ := exists_step_result s
      obtain ⟨t', ht', -⟩ := exists_step_result t
      obtain ⟨rstS, quietS'⟩ := noResetFor_succ quietS hs'
      obtain ⟨rstT, quietT'⟩ := noResetFor_succ quietT ht'
      by_cases hs : s.moves
      · by_cases ht : t.moves
        · obtain ⟨hcore', hemitted⟩ := step_moves_core hcore hs ht hs' ht'
          exact observe_succ_of_moves hs' ht' hcore' hemitted (ihj k hcore' quietS' quietT')
        · obtain ⟨same, silent⟩ := step_paused ht' rstT ht
          rw [observe_succ_none k ht' silent]
          exact ihk (hcore.trans same.symm) quietS quietT'
      · obtain ⟨same, silent⟩ := step_paused hs' rstS hs
        rw [observe_succ_none j hs' silent]
        exact ihj (k + 1) (same.trans hcore) quietS' quietT

/-- Settles O54: states that differ in the harness's inputs only have one core. -/
theorem beatsIndependentOfHarness : Obligations.BeatsIndependentOfHarness :=
  fun j k _ _ same => observe_prefix_of_core j k (core_of_sameBlock same)

end Sys2Proof.Machine
end
